-- ==== Sys2Proof/Word.lean ====
section
/-! DEFINITION. The words of the part (00 section 5, 12) and the containers for what it has four or ten of. -/

namespace Sys2Proof

/-- One byte of a cell or of a calibration page. -/
abbrev Byte := BitVec 8
/-- A sample word, signed (R93). -/
abbrev Sample := BitVec 16
/-- A cell of 38 bytes, byte 0 in the most significant place (12). -/
abbrev Cell := BitVec 304
/-- The 32 payload bytes of a cell, payload byte 0 in the most significant place (12). -/
abbrev Payload := BitVec 256
/-- A calibration page of 512 bytes, byte 0 in the most significant place (R84). -/
abbrev Page := BitVec 4096
/-- A channel number, 0 to 3. -/
abbrev Chan := Fin 4
/-- A bank number, 0 to 3 (R93). -/
abbrev BankNo := Fin 4

/-- Four like things, one for each channel, bank or start group. -/
structure Quad (α : Type) where
  a0 : α
  a1 : α
  a2 : α
  a3 : α
deriving DecidableEq, Repr

def Quad.get {α : Type} (q : Quad α) (i : Fin 4) : α :=
  match i with
  | 0 => q.a0
  | 1 => q.a1
  | 2 => q.a2
  | 3 => q.a3

def Quad.set {α : Type} (q : Quad α) (i : Fin 4) (x : α) : Quad α :=
  match i with
  | 0 => { q with a0 := x }
  | 1 => { q with a1 := x }
  | 2 => { q with a2 := x }
  | 3 => { q with a3 := x }

def Quad.fill {α : Type} (x : α) : Quad α := ⟨x, x, x, x⟩

def Quad.map {α β : Type} (f : α → β) (q : Quad α) : Quad β := ⟨f q.a0, f q.a1, f q.a2, f q.a3⟩

def Quad.toList {α : Type} (q : Quad α) : List α := [q.a0, q.a1, q.a2, q.a3]

/-- The four indices in rising order, the order in which one act visits channels, banks or groups (log 13). -/
def four : List (Fin 4) := [0, 1, 2, 3]

/-- The ten credit classes (R148). -/
inductive CreditClass where
  | stream (c : Chan)
  | play (c : Chan)
  | load
  | control
deriving DecidableEq, Repr

/-- One value for each credit class. -/
structure PerClass (α : Type) where
  stream : Quad α
  play : Quad α
  load : α
  control : α
deriving DecidableEq, Repr

def PerClass.get {α : Type} (p : PerClass α) (k : CreditClass) : α :=
  match k with
  | .stream c => p.stream.get c
  | .play c => p.play.get c
  | .load => p.load
  | .control => p.control

def PerClass.set {α : Type} (p : PerClass α) (k : CreditClass) (x : α) : PerClass α :=
  match k with
  | .stream c => { p with stream := p.stream.set c x }
  | .play c => { p with play := p.play.set c x }
  | .load => { p with load := x }
  | .control => { p with control := x }

def PerClass.fill {α : Type} (x : α) : PerClass α := ⟨Quad.fill x, Quad.fill x, x, x⟩

/-- The classes in the order of their indices 0 to 9 (R148). -/
def PerClass.toList {α : Type} (p : PerClass α) : List α :=
  p.stream.toList ++ p.play.toList ++ [p.load, p.control]

/-- The outcome of a check group (R122); the numbers 0, 1, 2 of 12 follow this order. -/
inductive Ecc where
  | clean
  | corrected
  | uncorrectable
deriving DecidableEq, Repr, Inhabited

end Sys2Proof
end

