-- ==== Sys2Proof/Syntax.lean ====
section
/-! DEFINITION. The commands of the block, one constructor for each row of the opcode table, and the operations
that control cells carry (12, the operation table), with each argument at its width on the link. -/

namespace Sys2Proof

/-- The bits of a read burst that have gone wrong since the groups were last read or written: four masks of 72
bits, group g of the burst in bits 72*g to 72*g+71, of which 63:0 are data and 71:64 check bits (R122, log 7). -/
abbrev Flips := BitVec 288

/-- The operation of a control cell (12): its code and its arguments, as the cell gives them. -/
inductive Op where
  /-- SEG_DEFINE, code 0x01 (R7). -/
  | segDefine (index : BitVec 16) (base : BitVec 32) (length : BitVec 32) (loopGiven : BitVec 8) (loop : BitVec 32)
  /-- SEG_DELETE, code 0x02 (R8). -/
  | segDelete (index : BitVec 16)
  /-- SEG_LOCK, code 0x03 (R9). -/
  | segLock (index : BitVec 16) (value : BitVec 8)
  /-- SEG_READ, code 0x04 (R10). -/
  | segRead (index : BitVec 16)
  /-- PROFILE_WRITE, code 0x05 (R13). -/
  | profileWrite (index : BitVec 8) (interp : BitVec 8) (gain : BitVec 16) (offset : BitVec 32) (curve : BitVec 8)
  /-- PROFILE_CLEAR, code 0x06 (R14). -/
  | profileClear (index : BitVec 8)
  /-- PROFILE_READ, code 0x07 (R15). -/
  | profileRead (index : BitVec 8)
  /-- START, code 0x10 (R32). -/
  | start (members : BitVec 8) (mode : BitVec 8)
  /-- STOP, code 0x11 (R33). -/
  | stop (members : BitVec 8) (mode : BitVec 8)
  /-- FLUSH, code 0x12 (R34). -/
  | flush (channel : BitVec 8)
  /-- SKIP, code 0x13 (R35). -/
  | skip (channel : BitVec 8)
  /-- CHANNEL_SET, code 0x14 (R36). -/
  | channelSet (channel : BitVec 8) (mode : BitVec 8) (divider : BitVec 8) (idle : BitVec 8) (park : BitVec 16) (lo : BitVec 16) (hi : BitVec 16) (prof : BitVec 8) (incI : BitVec 8) (incF : BitVec 32)
  /-- CHANNEL_READ, code 0x15 (R38). -/
  | channelRead (channel : BitVec 8)
  /-- CURVE_WRITE, code 0x20 (R80). -/
  | curveWrite (channel : BitVec 8) (first : BitVec 8) (count : BitVec 8) (values : BitVec 192)
  /-- CURVE_COMMIT, code 0x21 (R81). -/
  | curveCommit (channel : BitVec 8) (mode : BitVec 8)
  /-- CURVE_READ, code 0x22 (R83). -/
  | curveRead (channel : BitVec 8) (selector : BitVec 8) (first : BitVec 8) (count : BitVec 8)
  /-- CURVE_LOAD, code 0x23 (R88). -/
  | curveLoad (channel : BitVec 8) (page : BitVec 8)
  /-- CAL_READ, code 0x24 (R87). -/
  | calRead (page : BitVec 8) (offset : BitVec 16) (count : BitVec 8)
  /-- CAL_PROGRAM, code 0x25 (R89). -/
  | calProgram (page : BitVec 8)
  /-- CAL_LOCK, code 0x26 (R90). -/
  | calLock
  /-- LOAD_OPEN, code 0x30 (R109). -/
  | loadOpen (base : BitVec 32) (length : BitVec 32)
  /-- LOAD_CLOSE, code 0x31 (R112). -/
  | loadClose
  /-- STORE_READ, code 0x32 (R114). -/
  | storeRead (address : BitVec 32) (count : BitVec 8)
  /-- STORE_SET, code 0x33 (R117). -/
  | storeSet (policy : BitVec 8) (threshold : BitVec 8)
  /-- STORE_INIT, code 0x38 (R139). -/
  | storeInit
  /-- RETIRE_ROW, code 0x39 (R134). -/
  | retireRow (bank : BitVec 8) (row : BitVec 16)
  /-- WEAK_READ, code 0x3A (R133). -/
  | weakRead (first : BitVec 8)
  /-- REMAP_READ, code 0x3B (R132). -/
  | remapRead (bank : BitVec 8) (first : BitVec 8)
  /-- FAULT_READ, code 0x3C (R128). -/
  | faultRead
  /-- EVENTS_SET, code 0x40 (R175). -/
  | eventsSet (enables : BitVec 16)
  /-- STANDBY_ENTER, code 0x48 (R178). -/
  | standbyEnter
  /-- STANDBY_EXIT, code 0x49 (R179). -/
  | standbyExit
  /-- STATUS, code 0x50 (R162). -/
  | status
  /-- COUNTERS, code 0x51 (R165). -/
  | counters (target : BitVec 8) (clear : BitVec 8)
  /-- SOFT_RESET, code 0x52 (R167). -/
  | softReset
  /-- A code that the operation table does not name (R158). -/
  | unknown (code : BitVec 8)
deriving DecidableEq, Repr

/-- A control cell as the Management Unit reads it: the tag and the operation (R157). -/
structure CtlCell where
  tag : BitVec 16
  op : Op
deriving DecidableEq, Repr

/-- The commands. The rows POWER_ON to CAL_LOCK_COMPLETE are events at the part; the rows SEG_DEFINE to
UNDEFINED_OPERATION are the arrivals of good control cells that carry the operation (log 5). -/
inductive Instr where
  /-- POWER_ON (R180). Supply becomes good with RESETN high. If the loss of power interrupted a calibration program: how many bytes it had reached and which of their bits did not take, and whether a cell of the lock mark had taken (R91, log 7). -/
  | powerOn (reached : Nat) (faults : Page) (lockTook : Bool)
  /-- PIN_RESET_ASSERT (R180). RESETN falls; the operands are those of an interrupted calibration program, as for `powerOn`. -/
  | pinResetAssert (reached : Nat) (faults : Page) (lockTook : Bool)
  /-- PIN_RESET_RELEASE (R180). RESETN returns high. -/
  | pinResetRelease
  /-- START_UP_END (R181). The start-up read duration has passed. -/
  | startUpEnd
  /-- TRIG_RISING_EDGE (R42). A rising edge on TRIG. -/
  | trigRisingEdge
  /-- TRIGGER_CELL (R42). A good trigger cell on the downstream link. -/
  | triggerCell
  /-- CLOCK_LOCK (R176). The lock count reaches 4096. -/
  | clockLock
  /-- CLOCK_QUALIFIED_START (R176). A first qualified period in NO_CLOCK. -/
  | clockQualifiedStart
  /-- CLOCK_LOSS (R176). The sample clock is lost. -/
  | clockLoss
  /-- OUTPUT_TICK (R44). The divider count of channel c expires. -/
  | outputTick (c : Chan)
  /-- START_TICK (R40). The start tick of the start-pending groups. -/
  | startTick
  /-- ENTRY_COMPLETION (R26). The completion actions of channel c's ended entry. -/
  | entryCompletion (c : Chan)
  /-- HUNT_GOOD_CANDIDATE (R144). 304 bits of the line that are a good candidate. -/
  | huntGoodCandidate (cell : Cell)
  /-- PRESYNC_CELL (R145). 304 bits at the cell boundary, tested in PRESYNC. -/
  | presyncCell (cell : Cell)
  /-- BAD_CELL (R146). 304 bits at the cell boundary that are a bad cell. -/
  | badCell (cell : Cell)
  /-- SILENCE_TIMER_EXPIRY (R147). The link silence interval expires. -/
  | silenceTimerExpiry
  /-- PLAY_CELL (R20). A good play cell for channel c. -/
  | playCell (c : Chan) (payload : Payload)
  /-- STREAM_CELL (R66). A good stream cell for channel c with its START and END flags. -/
  | streamCell (c : Chan) (start : Bool) (last : Bool) (payload : Payload)
  /-- LOAD_CELL (R110). A good load cell. -/
  | loadCell (payload : Payload)
  /-- CONTROL_CELL (R156). A good control cell, its payload as on the line. -/
  | controlCell (payload : Payload)
  /-- FILL_CELL (R148). A good fill cell. -/
  | fillCell
  /-- UNDEFINED_KIND_CELL (R148). A good cell whose kind code is not in the header table. -/
  | undefinedKindCell (kind : BitVec 4)
  /-- UPSTREAM_CELL_START (R153). The LTX starts an upstream cell. -/
  | upstreamCellStart
  /-- REFRESH_INTERVAL_EXPIRY (R119). The refresh interval expires. -/
  | refreshIntervalExpiry
  /-- ACTIVATION_COMPLETE (R95). The activation in bank b completes. -/
  | activationComplete (b : BankNo)
  /-- CLOSE_COMPLETE (R95). The close in bank b completes. -/
  | closeComplete (b : BankNo)
  /-- REFRESH_COMPLETE (R120). The refresh in bank b completes. -/
  | refreshComplete (b : BankNo)
  /-- FETCH_BURST_COMPLETE (R106). The fetch burst in progress in bank b completes. -/
  | fetchBurstComplete (b : BankNo) (flips : Flips)
  /-- LOAD_WRITE_COMPLETE (R110). The Load Writer's write burst completes. -/
  | loadWriteComplete
  /-- LOAD_CLOSE_READ_COMPLETE (R111). The Load Writer's close read completes. -/
  | loadCloseReadComplete (flips : Flips)
  /-- STORE_READ_BURST_COMPLETE (R114). The management read burst completes. -/
  | storeReadBurstComplete (flips : Flips)
  /-- RETIRE_COPY_READ_COMPLETE (R135). The retire copier's read completes. -/
  | retireCopyReadComplete (flips : Flips)
  /-- RETIRE_COPY_WRITE_COMPLETE (R135). The retire copier's write completes. -/
  | retireCopyWriteComplete
  /-- INIT_WRITE_COMPLETE (R139). The init writer's write in bank b completes. -/
  | initWriteComplete (b : BankNo)
  /-- CAL_PROGRAM_COMPLETE (R89). Page programming and verify end: which bits of the page did not take, and whether the verified mark reads as set (log 7). -/
  | calProgramComplete (faults : Page) (markTook : Bool)
  /-- CAL_LOCK_COMPLETE (R90). The lock mark program ends: whether the mark reads as set (log 7). -/
  | calLockComplete (markTook : Bool)
  /-- SEG_DEFINE (R7). -/
  | segDefine (tag : BitVec 16) (index : BitVec 16) (base : BitVec 32) (length : BitVec 32) (loopGiven : BitVec 8) (loop : BitVec 32)
  /-- SEG_DELETE (R8). -/
  | segDelete (tag : BitVec 16) (index : BitVec 16)
  /-- SEG_LOCK (R9). -/
  | segLock (tag : BitVec 16) (index : BitVec 16) (value : BitVec 8)
  /-- SEG_READ (R10). -/
  | segRead (tag : BitVec 16) (index : BitVec 16)
  /-- PROFILE_WRITE (R13). -/
  | profileWrite (tag : BitVec 16) (index : BitVec 8) (interp : BitVec 8) (gain : BitVec 16) (offset : BitVec 32) (curve : BitVec 8)
  /-- PROFILE_CLEAR (R14). -/
  | profileClear (tag : BitVec 16) (index : BitVec 8)
  /-- PROFILE_READ (R15). -/
  | profileRead (tag : BitVec 16) (index : BitVec 8)
  /-- START (R32). -/
  | start (tag : BitVec 16) (members : BitVec 8) (mode : BitVec 8)
  /-- STOP (R33). -/
  | stop (tag : BitVec 16) (members : BitVec 8) (mode : BitVec 8)
  /-- FLUSH (R34). -/
  | flush (tag : BitVec 16) (channel : BitVec 8)
  /-- SKIP (R35). -/
  | skip (tag : BitVec 16) (channel : BitVec 8)
  /-- CHANNEL_SET (R36). -/
  | channelSet (tag : BitVec 16) (channel : BitVec 8) (mode : BitVec 8) (divider : BitVec 8) (idle : BitVec 8) (park : BitVec 16) (lo : BitVec 16) (hi : BitVec 16) (prof : BitVec 8) (incI : BitVec 8) (incF : BitVec 32)
  /-- CHANNEL_READ (R38). -/
  | channelRead (tag : BitVec 16) (channel : BitVec 8)
  /-- CURVE_WRITE (R80). -/
  | curveWrite (tag : BitVec 16) (channel : BitVec 8) (first : BitVec 8) (count : BitVec 8) (values : BitVec 192)
  /-- CURVE_COMMIT (R81). -/
  | curveCommit (tag : BitVec 16) (channel : BitVec 8) (mode : BitVec 8)
  /-- CURVE_READ (R83). -/
  | curveRead (tag : BitVec 16) (channel : BitVec 8) (selector : BitVec 8) (first : BitVec 8) (count : BitVec 8)
  /-- CURVE_LOAD (R88). -/
  | curveLoad (tag : BitVec 16) (channel : BitVec 8) (page : BitVec 8)
  /-- CAL_READ (R87). -/
  | calRead (tag : BitVec 16) (page : BitVec 8) (offset : BitVec 16) (count : BitVec 8)
  /-- CAL_PROGRAM (R89). -/
  | calProgram (tag : BitVec 16) (page : BitVec 8)
  /-- CAL_LOCK (R90). -/
  | calLock (tag : BitVec 16)
  /-- LOAD_OPEN (R109). -/
  | loadOpen (tag : BitVec 16) (base : BitVec 32) (length : BitVec 32)
  /-- LOAD_CLOSE (R112). -/
  | loadClose (tag : BitVec 16)
  /-- STORE_READ (R114). -/
  | storeRead (tag : BitVec 16) (address : BitVec 32) (count : BitVec 8)
  /-- STORE_SET (R117). -/
  | storeSet (tag : BitVec 16) (policy : BitVec 8) (threshold : BitVec 8)
  /-- STORE_INIT (R139). -/
  | storeInit (tag : BitVec 16)
  /-- RETIRE_ROW (R134). -/
  | retireRow (tag : BitVec 16) (bank : BitVec 8) (row : BitVec 16)
  /-- WEAK_READ (R133). -/
  | weakRead (tag : BitVec 16) (first : BitVec 8)
  /-- REMAP_READ (R132). -/
  | remapRead (tag : BitVec 16) (bank : BitVec 8) (first : BitVec 8)
  /-- FAULT_READ (R128). -/
  | faultRead (tag : BitVec 16)
  /-- EVENTS_SET (R175). -/
  | eventsSet (tag : BitVec 16) (enables : BitVec 16)
  /-- STANDBY_ENTER (R178). -/
  | standbyEnter (tag : BitVec 16)
  /-- STANDBY_EXIT (R179). -/
  | standbyExit (tag : BitVec 16)
  /-- STATUS (R162). -/
  | status (tag : BitVec 16)
  /-- COUNTERS (R165). -/
  | counters (tag : BitVec 16) (target : BitVec 8) (clear : BitVec 8)
  /-- SOFT_RESET (R167). -/
  | softReset (tag : BitVec 16)
  /-- UNDEFINED_OPERATION (R158). -/
  | undefinedOperation (tag : BitVec 16) (code : BitVec 8)
deriving DecidableEq, Repr

end Sys2Proof
end

