-- ==== Sys2Proof/Decode.lean ====
section
/-! DEFINITION. Command words. The opcode table gives no row of this part any bits: commands are events at its pins
and blocks, and cells whose layout is read in Machine/Operands.lean. -/

namespace Sys2Proof

/-- The command that a word spells by the table's bits: none, since no row has bits (log 31). -/
def decodeTableWord (_nbits _w : Nat) : Option Instr := none

end Sys2Proof
end

