-- ==== Sys2Proof/Config.lean ====
section
/-! DEFINITION. The free values of the model: what the spec leaves open and the part goes on after.
None has a body, so no proof can see what it is. Each is applied to the counter `State.free`. -/

namespace Sys2Proof

/-- FREE VALUE (log 8, log 9). The outcome of a check group that holds more than two wrong bits (R122) or
undefined contents (R94): any of the three. -/
opaque Config.freeEcc : Nat → Ecc

/-- FREE VALUE (log 9). The four sample words that a group of undefined contents delivers (R94, R122). -/
opaque Config.freeWords : Nat → BitVec 64

/-- FREE VALUE (log 8). The one bit of the 72 that is corrected in a group of more than two wrong bits that received the
outcome CORRECTED (R122). -/
opaque Config.freeBit : Nat → Fin 72

end Sys2Proof
end

