-- ==== Sys2Proof/Machine/Tables.lean ====
section
/-! DEFINITION. Sparse tables in one canonical form: keys strictly rising, an absent key unlisted. The pattern
store, the Segment Directory and the Profile Table are held so. -/

namespace Sys2Proof.Machine

/-- What the table holds at a key, if anything. -/
def tableGet {α : Type} : List (Nat × α) → Nat → Option α
  | [], _ => none
  | (k, v) :: rest, a => if a = k then some v else tableGet rest a

/-- Puts v at key a, keeping the keys in strictly rising order. -/
def tablePut {α : Type} : List (Nat × α) → Nat → α → List (Nat × α)
  | [], a, v => [(a, v)]
  | (k, w) :: rest, a, v =>
    if a < k then (a, v) :: (k, w) :: rest
    else if a = k then (a, v) :: rest
    else (k, w) :: tablePut rest a v

/-- Makes key a absent. -/
def tableErase {α : Type} : List (Nat × α) → Nat → List (Nat × α)
  | [], _ => []
  | (k, w) :: rest, a => if a = k then rest else (k, w) :: tableErase rest a

/-- The canonical form: keys strictly rising. -/
def tableWf {α : Type} : List (Nat × α) → Bool
  | [] => true
  | [_] => true
  | (k, _) :: (l, w) :: rest => decide (k < l) && tableWf ((l, w) :: rest)

end Sys2Proof.Machine
end

