-- ==== Sys2Proof/Machine/State.lean ====
section
/-! DEFINITION. Everything the spec gives the part to hold, as plain data, and the state after reset. -/

namespace Sys2Proof.Machine

/-! ### Names with fixed sets of values, each in the order the spec lists them (12: numbered from 0) -/

/-- Channel states (R29). -/
inductive ChState where
  | idle | priming | armed | running | stopping | halted
deriving DecidableEq, Repr

/-- A channel's configured mode (R36). -/
inductive Mode where
  | play | stream
deriving DecidableEq, Repr

/-- A channel's idle policy (R36, R63). -/
inductive IdlePolicy where
  | holdLast | park
deriving DecidableEq, Repr

/-- A profile's interpolation (R12). -/
inductive Interp where
  | nearest | linear
deriving DecidableEq, Repr

/-- A profile's curve field (R12). -/
inductive CurveUse where
  | apply | bypass
deriving DecidableEq, Repr

/-- A start group's mode (R39). -/
inductive GroupMode where
  | immediate | trigger
deriving DecidableEq, Repr

/-- The delineation state (R142). -/
inductive Delin where
  | hunt | presync | sync
deriving DecidableEq, Repr

/-- The Clock Conditioner's state (R176). -/
inductive ClockState where
  | noClock | locking | locked
deriving DecidableEq, Repr

/-- The part state (R178, R179). -/
inductive PartState where
  | active | standby | exiting
deriving DecidableEq, Repr

/-- The store state (R94). -/
inductive StoreState where
  | uninitialized | initializing | ready
deriving DecidableEq, Repr

/-- The page policy (R97). -/
inductive PagePolicy where
  | openPage | closePage
deriving DecidableEq, Repr

/-- A calibration page's state (R84). -/
inductive PageState where
  | blank | programmed | defective
deriving DecidableEq, Repr

/-- A spare row's state (R131). -/
inductive SpareState where
  | free | linked | discarded
deriving DecidableEq, Repr

/-- A remap link's origin (R131). -/
inductive LinkOrigin where
  | factory | user
deriving DecidableEq, Repr

/-- A remap link's state (R131). -/
inductive LinkState where
  | copying | active
deriving DecidableEq, Repr

/-- Status codes of replies and events, and the further rejection codes of PLAY_REJECT (09 section 9.3, 12). -/
inductive Code where
  | ok | accepted | badOp | badArg | badIndex | notPresent | inUse | inLoad | protected_ | busy | notReady
  | standby | wrongState | tableFull | sparesExhausted | blankPage | calCorrupt | alreadyProgrammed | locked
  | programFailed | wrongMode | badOffset | badLoop | badRate | profileAbsent | noStream
deriving DecidableEq, Repr

/-- Event sources (R169). -/
inductive Source where
  | channel (c : Chan)
  | store | link | storeInit | retire | cal | standbyExit | load | clock
deriving DecidableEq, Repr

/-- Event kinds (R169). -/
inductive Kind where
  | playDone | queueEmpty | starved | clipped | playReject | triggerMissed | halted | eccThreshold
  | eccUncorrectable | refreshOverrun | linkState | crcError | queueOverrun | strayLoad | opDone | clockState
deriving DecidableEq, Repr

/-- Who asked for a read that gave an UNCORRECTABLE group (R123, R128). -/
inductive Requester where
  | fetch (c : Chan)
  | management | retireCopy | loadClose
deriving DecidableEq, Repr

/-! ### Segments, profiles, curves -/

/-- A present segment descriptor (R1). -/
structure Desc where
  base : Nat
  length : Nat
  loop : Option Nat
  locked : Bool
  use : Nat
deriving DecidableEq, Repr

/-- A present profile record, and a profile snapshot (R12, R22). The widths give the ranges of R12. -/
structure Profile where
  interp : Interp
  gain : BitVec 16
  offset : BitVec 17
  curve : CurveUse
deriving DecidableEq, Repr

/-- The 33 breakpoints of a curve, T[0] first; 18 bits signed are −131072 to 131071 (R78). -/
abbrev Curve := List (BitVec 18)

/-- The identity curve T[j] = 2048 × j − 32768 (R53, R79). -/
def identityCurve : Curve := (List.range 33).map fun j => BitVec.ofInt 18 (2048 * (j : Int) - 32768)

/-! ### A channel -/

/-- A play entry (R18), its fields as the play cell gives them. -/
structure Entry where
  seg : BitVec 16
  prof : BitVec 8
  passes : BitVec 16
  incI : BitVec 4
  incF : BitVec 32
  markWidth : BitVec 8
  splice : Bool
  notify : Bool
  mark : Bool
  start : Option (BitVec 32)
deriving DecidableEq, Repr

/-- A held play context (R22). The entry-done flag carries the overshoot and the fraction that the ended entry
offers to its successor (R61). -/
structure Ctx where
  entry : Entry
  snap : Profile
  i : Nat
  f : BitVec 32
  passes : BitVec 16
  marker : BitVec 8
  done : Option (Nat × BitVec 32)
deriving DecidableEq, Repr

/-- A stream cell in the intake (R66): 16 samples, the earliest in the most significant place. -/
structure StreamCell where
  start : Bool
  last : Bool
  data : Payload
deriving DecidableEq, Repr

/-- An open stream (R69, R70). -/
structure Stream where
  snap : Profile
  prof : BitVec 8
  incI : BitVec 4
  incF : BitVec 32
  i : Nat
  f : BitVec 32
  endPos : Option Nat
deriving DecidableEq, Repr

/-- A channel's configuration (R36). -/
structure ChanCfg where
  mode : Mode
  divider : BitVec 8
  idle : IdlePolicy
  park : BitVec 16
  lo : BitVec 16
  hi : BitVec 16
  prof : BitVec 8
  incI : BitVec 4
  incF : BitVec 32
deriving DecidableEq, Repr

/-- A channel's counters (R37, R164). -/
structure ChanCounters where
  completions : BitVec 32
  rejections : BitVec 32
  trigMisses : BitVec 32
  starved : BitVec 32
  clipped : BitVec 32
  uncorrectable : BitVec 32
deriving DecidableEq, Repr

/-- A word of a sample window; `next` is the tag NEXT, its absence CURRENT (R102). -/
structure FetchWord where
  val : Sample
  next : Bool
deriving DecidableEq, Repr

/-- The state of a burst record (R102). A RETURNED record holds the kept words in index order, each with whether
its group was UNCORRECTABLE (R106, R130). -/
inductive RecState where
  | waiting
  | granted
  | returned (words : List (Sample × Bool))
deriving DecidableEq, Repr

/-- An outstanding burst (R102): tag, logical address of the burst position, first and last segment index kept. -/
structure FetchRec where
  next : Bool
  addr : Nat
  first : Nat
  last : Nat
  st : RecState
  discard : Bool
deriving DecidableEq, Repr

/-- A fetch cursor that is not none (R102): the entry's tag, the next index, the passes still to fetch with the
current one, 0 for an unbounded entry. -/
structure Cursor where
  next : Bool
  idx : Nat
  passes : BitVec 16
deriving DecidableEq, Repr

/-- A Fetch Unit (R102). `stale` and `owed` are the model's reading of "the words ahead of the phase" (log 16):
how many words at the front of the window lie behind the phase, and how many words the phase has passed that the
window has not yet received. -/
structure Fetch where
  window : List FetchWord
  stale : Nat
  owed : Nat
  outs : List FetchRec
  cursor : Option Cursor
deriving DecidableEq, Repr

/-- An output port (R45): the code and the marker bit it presents. -/
structure Port where
  code : BitVec 16
  marker : Bool
deriving DecidableEq, Repr

/-- One channel lane: sequencer (02), intake (R66), shaping datapath (R45), curves (R78), Fetch Unit (R102) and
divider counter (R177). -/
structure Channel where
  st : ChState
  cfg : ChanCfg
  queue : List Entry
  ctx : Option Ctx
  stream : Option Stream
  intake : List StreamCell
  cnt : ChanCounters
  held : BitVec 16
  subst : Sample
  clippedFlag : Bool
  port : Port
  active : Curve
  pendCurve : Curve
  commitReq : Bool
  fetch : Fetch
  divCount : Nat
  divNow : Nat
deriving DecidableEq, Repr

/-! ### Start groups, clock, links, management -/

/-- A start group (R39). -/
structure Group where
  members : Quad Bool
  mode : GroupMode
  complete : Bool
  pending : Bool
deriving DecidableEq, Repr

/-- The Clock Conditioner (R176). -/
structure Ckc where
  st : ClockState
  lockCount : Nat
deriving DecidableEq, Repr

/-- The Link Receiver (R142). `boundary` counts bits from the end of the candidate that left HUNT (log 21). -/
structure Lrx where
  deln : Delin
  boundary : Nat
  goodRun : Nat
  badRun : Nat
  silence : Bool
  received : PerClass Byte
  crcDrops : BitVec 32
  delinLosses : BitVec 32
  undefKinds : BitVec 32
  strayLoads : BitVec 32
  overruns : PerClass (BitVec 32)
deriving DecidableEq, Repr

/-- A reply (R160). -/
structure Reply where
  op : Byte
  tag : BitVec 16
  status : Code
  data : List Byte
deriving DecidableEq, Repr

/-- The upstream line: held low (R155), quiet before the first cell, or the cell last started (log 20). -/
inductive Line where
  | low
  | quiet
  | cell (c : Cell)
deriving DecidableEq, Repr

/-- The Link Transmitter (R149, R152, R154). -/
structure Ltx where
  freed : PerClass Byte
  replies : List Reply
  rot : Nat
  line : Line
deriving DecidableEq, Repr

/-- An operation the MGU holds open (R159). STORE_READ keeps the words and the outcomes read so far and the
address of the burst position it waits for. -/
inductive MguJob where
  | storeRead (tag : BitVec 16) (addr count : Nat) (words : List Sample) (outs : List Ecc) (burst : Nat)
  | loadClose (tag : BitVec 16)
deriving DecidableEq, Repr

/-- The unit state with the current operation or the held reply (R156). -/
inductive Mgu where
  | available
  | executing (j : MguJob)
  | replyHeld (r : Reply)
deriving DecidableEq, Repr

/-- The long-operation slots: IDLE, or IN_FLIGHT with the tag (R161). -/
structure Slots where
  storeInit : Option (BitVec 16)
  retire : Option (BitVec 16)
  cal : Option (BitVec 16)
  standbyExit : Option (BitVec 16)
deriving DecidableEq, Repr

/-- An entry of the event queue (R171). -/
structure EvEntry where
  src : Source
  kind : Kind
  count : BitVec 16
  detail : BitVec 32
  status : Code
deriving DecidableEq, Repr

/-! ### The Calibration Region -/

/-- A calibration program in flight (R89, R90). -/
inductive CalJob where
  | program (page : Nat) (image : Page)
  | lock
deriving DecidableEq, Repr

/-- The Calibration Region (R84): the one-time storage (pages, two marks a page, the lock mark), and the page
state table and the region lock derived from the marks. What could make a page that was verified read otherwise later
(R85) the spec does not say: no command does here (the model's choice, log 38). -/
structure Cal where
  pages : List Page
  written : List Bool
  verified : List Bool
  lockMark : Bool
  states : List PageState
  lock : Bool
  job : Option CalJob
deriving DecidableEq, Repr

/-! ### The Pattern Store -/

/-- A stored check group: the four words as written, the first in the most significant place, and which of the
72 stored bits (63:0 data, 71:64 check) now differ from what was written (R122, log 11). -/
structure Grp where
  data : BitVec 64
  wrong : BitVec 72
deriving DecidableEq, Repr

/-- What a request asks for (R99): a burst of a requester at the logical address of a burst position, the
copier's write to a spare named directly by physical row and column, or a refresh. -/
inductive Req where
  | fetch (c : Chan) (addr : Nat)
  | loadWrite (addr : Nat)
  | closeRead (addr : Nat)
  | mgmtRead (addr : Nat)
  | retireRead (addr : Nat)
  | retireWrite (row col : Nat)
  | initWrite (addr : Nat)
  | refresh
deriving DecidableEq, Repr

/-- Granted work (R100): the request, whether CLOSE_PAGE was in force at the grant (R97), and whether a retire
completion has demanded a close after it (R136). -/
structure Work where
  req : Req
  closePage : Bool
  closeAfter : Bool
deriving DecidableEq, Repr

/-- A bank controller's state (R95). -/
inductive Ctrl where
  | closed
  | opening (row : Nat)
  | opened (row : Nat)
  | closing
  | refreshing
  | selfRefresh
deriving DecidableEq, Repr

/-- A bank: controller (R95), arbiter (R99, R100) and refresh state (R118). -/
structure Bank where
  ctrl : Ctrl
  work : Option Work
  waiting : List Req
  rr : Chan
  ptr : Nat
  debt : Nat
  overruns : BitVec 32
deriving DecidableEq, Repr

/-- An entry of the weak row list (R125). -/
structure Weak where
  bank : BankNo
  row : Nat
  count : BitVec 8
  flagged : Bool
deriving DecidableEq, Repr

/-- The store fault record (R128). -/
structure FaultRec where
  present : Bool
  addr : Nat
  bank : BankNo
  row : Nat
  req : Requester
  total : BitVec 32
deriving DecidableEq, Repr

/-- A remap link (R131). -/
structure Link where
  bank : BankNo
  row : Nat
  spare : Nat
  target : Option Nat
  origin : LinkOrigin
  state : LinkState
deriving DecidableEq, Repr

/-- The Pattern Store with its Integrity Unit and Refresh Engine. An unlisted group of `mem` is undefined
(R94, log 9). -/
structure Store where
  state : StoreState
  suspect : Bool
  policy : PagePolicy
  threshold : BitVec 8
  mem : List (Nat × Grp)
  banks : Quad Bank
  corrected : BitVec 32
  weak : List Weak
  fault : FaultRec
  links : List Link
  spares : Quad (List SpareState)
deriving DecidableEq, Repr

/-- An open load window (R108). -/
structure LoadWindow where
  base : Nat
  length : Nat
  next : Nat
  written : Nat
  accepting : Bool
  tag : BitVec 16
deriving DecidableEq, Repr

/-- The Load Writer (R108): the window, none while CLOSED, and the load buffer. -/
structure Ldw where
  window : Option LoadWindow
  buffer : List Payload
deriving DecidableEq, Repr

/-- The retire copier at work (R134, R135): the burst position it copies, the words last read, and the
uncorrectable-group count. -/
structure Retire where
  bank : BankNo
  row : Nat
  spare : Nat
  pos : Nat
  words : Payload
  bad : Nat
deriving DecidableEq, Repr

/-- The whole part. `pending` is the queue of commands that wait, first in, first out; `free` numbers the free
values used (log 10); `init` is the next burst position (row × 16 + position) of each bank's walk (R139). -/
structure State where
  pending : List Instr
  free : Nat
  resetLow : Bool
  startingUp : Bool
  part : PartState
  calFault : Bool
  segs : List (Nat × Desc)
  profs : List (Nat × Profile)
  chans : Quad Channel
  groups : Quad (Option Group)
  ckc : Ckc
  lrx : Lrx
  ltx : Ltx
  cmdQ : List CtlCell
  mgu : Mgu
  slots : Slots
  events : List EvEntry
  mask : BitVec 16
  cal : Cal
  store : Store
  ldw : Ldw
  retire : Option Retire
  init : Option (Quad Nat)
deriving DecidableEq, Repr

/-- No command of this block stops the part: every error is a reply status, an event, a counter or a flag. -/
inductive Fault where
deriving DecidableEq, Repr

/-- Why a command has no meaning. -/
inductive Refusal where
  /-- Raised by `exec` alone, for a row of the opcode table that has no meaning yet; safe. -/
  | notModelled (mnemonic : String)
deriving DecidableEq, Repr

/-! ### Reset values -/

/-- R36, R37, R45, R77, R79, R102. -/
def cfgReset : ChanCfg :=
  { mode := .play, divider := 1, idle := .holdLast, park := 0, lo := 0x8000, hi := 0x7FFF, prof := 0,
    incI := 1, incF := 0 }

def countersReset : ChanCounters := ⟨0, 0, 0, 0, 0, 0⟩

def fetchReset : Fetch := { window := [], stale := 0, owed := 0, outs := [], cursor := none }

/-- A channel after power-on or pin reset, with the given curve in both places (R37, R45, R77, R79). The values
of the divider counter are the model's (log 19). -/
def channelReset (curve : Curve) : Channel :=
  { st := .idle, cfg := cfgReset, queue := [], ctx := none, stream := none, intake := [], cnt := countersReset,
    held := 0, subst := 0, clippedFlag := false, port := { code := 0x8000, marker := false },
    active := curve, pendCurve := curve, commitReq := false, fetch := fetchReset, divCount := 0, divNow := 1 }

/-- R142. -/
def lrxReset : Lrx :=
  { deln := .hunt, boundary := 0, goodRun := 0, badRun := 0, silence := false, received := PerClass.fill 0,
    crcDrops := 0, delinLosses := 0, undefKinds := 0, strayLoads := 0, overruns := PerClass.fill 0 }

/-- R149, R152, R154; the line before the first cell, which POWER_ON and PIN_RESET_RELEASE begin, is the model's (log 20). -/
def ltxReset : Ltx := { freed := PerClass.fill 0, replies := [], rot := 0, line := .quiet }

/-- R98, R100, R118. -/
def bankReset : Bank :=
  { ctrl := .closed, work := none, waiting := [], rr := 3, ptr := 0, debt := 0, overruns := 0 }

/-- R128. -/
def faultRecReset : FaultRec := { present := false, addr := 0, bank := 0, row := 0, req := .fetch 0, total := 0 }

def sparesFree : List SpareState := List.replicate 16 .free

/-- R94, R98, R117, R118, R124, R125, R128, R131. -/
def storeReset : Store :=
  { state := .uninitialized, suspect := false, policy := .openPage, threshold := 8, mem := [],
    banks := Quad.fill bankReset, corrected := 0, weak := [], fault := faultRecReset, links := [],
    spares := Quad.fill sparesFree }

/-- Page 0 as the model ships it (log 1): device code 0x7340 (12.3), every further byte 0, so that it lists no
factory link, and its check code. -/
def factoryPage0 : Page := (0x7340#4096 <<< 4080) ||| 0xE537#4096

/-- Page 1 as the model ships it (log 1): four identity curves and their check code. -/
def factoryPage1 : Page :=
  let image := identityCurve.foldl (fun (acc : Page) t => (acc <<< 24) ||| (t.signExtend 24).setWidth 4096) 0
  let four := (List.range 4).foldl (fun (acc : Page) _ => (acc <<< 792) ||| image) 0
  (four <<< 928) ||| 0x585B#4096

/-- The Calibration Region as shipped (R84): pages 0 and 1 PROGRAMMED, pages 2 to 7 BLANK and erased to 0xFF. -/
def calShipped : Cal :=
  { pages := [factoryPage0, factoryPage1] ++ List.replicate 6 (BitVec.allOnes 4096),
    written := [true, true] ++ List.replicate 6 false,
    verified := [true, true] ++ List.replicate 6 false,
    lockMark := false,
    states := [.programmed, .programmed] ++ List.replicate 6 .blank,
    lock := false, job := none }

/-- The part right after power-on, as shipped: every block at its power-on value, start-up begun (R180, R181). -/
def State.reset : State :=
  { pending := [], free := 0, resetLow := false, startingUp := true, part := .active, calFault := false,
    segs := [], profs := [], chans := Quad.fill (channelReset identityCurve), groups := Quad.fill none,
    ckc := { st := .noClock, lockCount := 0 }, lrx := lrxReset, ltx := ltxReset, cmdQ := [], mgu := .available,
    slots := ⟨none, none, none, none⟩, events := [], mask := BitVec.allOnes 16, cal := calShipped,
    store := storeReset, ldw := { window := none, buffer := [] }, retire := none, init := none }

end Sys2Proof.Machine
end

