-- ==== Sys2Proof/Machine/Operands.lean ====
section
/-! DEFINITION. Reading cells and their operands, and forming cells and page images: byte fields, the check code,
the kinds of downstream cells, the arguments of operations, the code numbers (R143, R85, R182, R183, 12). -/

namespace Sys2Proof.Machine

/-! ### Bytes -/

/-- n as `len` bytes, most significant first (12). -/
def bytesOf : Nat → Nat → List Byte
  | 0, _ => []
  | len + 1, n => BitVec.ofNat 8 (n / 256 ^ len) :: bytesOf len n

/-- The value of bytes held most significant first. -/
def natOfBytes (bs : List Byte) : Nat := bs.foldl (fun acc b => acc * 256 + b.toNat) 0

/-- Byte k of a value of `total` bytes whose byte 0 is in the most significant place. -/
def byteAt {w : Nat} (total : Nat) (v : BitVec w) (k : Nat) : Byte := v.extractLsb' (8 * (total - 1 - k)) 8

def bytesFrom {w : Nat} (total : Nat) (v : BitVec w) (first count : Nat) : List Byte :=
  (List.range count).map fun k => byteAt total v (first + k)

/-- A flag as one byte. -/
def flagByte (b : Bool) : Byte := if b then 1 else 0

/-! ### The check code (R85, R143) -/

/-- One step of the division by x^16 + x^15 + x^2 + 1. -/
def crcBit (c : BitVec 16) (bit : Bool) : BitVec 16 :=
  if c.msb ^^ bit then (c <<< 1) ^^^ 0x8005#16 else c <<< 1

/-- One byte, most significant bit first. -/
def crcByte (c : BitVec 16) (b : Byte) : BitVec 16 :=
  crcBit (crcBit (crcBit (crcBit (crcBit (crcBit (crcBit (crcBit c (b.getLsbD 7)) (b.getLsbD 6)) (b.getLsbD 5))
    (b.getLsbD 4)) (b.getLsbD 3)) (b.getLsbD 2)) (b.getLsbD 1)) (b.getLsbD 0)

/-- The check code of a run of bytes: initial value 0, no final inversion. -/
def crc (bs : List Byte) : BitVec 16 := bs.foldl crcByte 0

/-- A cell is good when its check code is correct and it is not all zero (R143). -/
def cellGood (c : Cell) : Bool :=
  decide (crc (bytesFrom 38 c 0 36) = c.extractLsb' 0 16) && decide (c ≠ 0)

/-- A page's check code over bytes 0 to 509 agrees with bytes 510 and 511 (R85). -/
def pageGood (p : Page) : Bool := decide (crc (bytesFrom 512 p 0 510) = p.extractLsb' 0 16)

/-- A cell of a 4-byte header and a payload, closed by its check code (R143, R183). -/
def makeCell (header payload : List Byte) : Cell :=
  let body := header ++ (payload ++ List.replicate (32 - payload.length) 0).take 32
  BitVec.ofNat 304 (natOfBytes body * 65536 + (crc body).toNat)

/-! ### Fields of a payload -/

/-- The field of `len` bytes at payload byte `off`, most significant byte first (12). -/
def payloadField (p : Payload) (off len : Nat) : BitVec (8 * len) := p.extractLsb' (256 - 8 * (off + len)) (8 * len)

/-- Sample k, 0 to 15, of a stream cell, a load cell or a burst (12: the earliest first). -/
def payloadSample (p : Payload) (k : Nat) : Sample := p.extractLsb' (240 - 16 * k) 16

/-- The 64 bits of group g, 0 to 3, of a burst (R101). -/
def payloadGroup (p : Payload) (g : Nat) : BitVec 64 := p.extractLsb' (192 - 64 * g) 64

/-- Word k, 0 to 3, of a group. -/
def groupWord (d : BitVec 64) (k : Nat) : Sample := d.extractLsb' (48 - 16 * k) 16

/-- The entry a play cell carries (R18, 12). -/
def payloadEntry (p : Payload) : Entry :=
  let flags : Byte := payloadField p 3 1
  { seg := payloadField p 0 2, prof := payloadField p 2 1, passes := payloadField p 8 2,
    incI := flags.extractLsb' 0 4, incF := payloadField p 4 4, markWidth := payloadField p 10 1,
    splice := flags.getLsbD 7, notify := flags.getLsbD 6, mark := flags.getLsbD 5,
    start := if flags.getLsbD 4 then some (payloadField p 12 4) else none }

/-- The operation of a control payload: code in byte 0, arguments from byte 3 in the order and widths of the
operation table (R182). -/
def payloadOp (p : Payload) : Op :=
  match (payloadField p 0 1).toNat with
  | 1 => .segDefine (payloadField p 3 2) (payloadField p 5 4) (payloadField p 9 4) (payloadField p 13 1) (payloadField p 14 4)
  | 2 => .segDelete (payloadField p 3 2)
  | 3 => .segLock (payloadField p 3 2) (payloadField p 5 1)
  | 4 => .segRead (payloadField p 3 2)
  | 5 => .profileWrite (payloadField p 3 1) (payloadField p 4 1) (payloadField p 5 2) (payloadField p 7 4) (payloadField p 11 1)
  | 6 => .profileClear (payloadField p 3 1)
  | 7 => .profileRead (payloadField p 3 1)
  | 16 => .start (payloadField p 3 1) (payloadField p 4 1)
  | 17 => .stop (payloadField p 3 1) (payloadField p 4 1)
  | 18 => .flush (payloadField p 3 1)
  | 19 => .skip (payloadField p 3 1)
  | 20 => .channelSet (payloadField p 3 1) (payloadField p 4 1) (payloadField p 5 1) (payloadField p 6 1) (payloadField p 7 2) (payloadField p 9 2) (payloadField p 11 2) (payloadField p 13 1) (payloadField p 14 1) (payloadField p 15 4)
  | 21 => .channelRead (payloadField p 3 1)
  | 32 => .curveWrite (payloadField p 3 1) (payloadField p 4 1) (payloadField p 5 1) (payloadField p 6 24)
  | 33 => .curveCommit (payloadField p 3 1) (payloadField p 4 1)
  | 34 => .curveRead (payloadField p 3 1) (payloadField p 4 1) (payloadField p 5 1) (payloadField p 6 1)
  | 35 => .curveLoad (payloadField p 3 1) (payloadField p 4 1)
  | 36 => .calRead (payloadField p 3 1) (payloadField p 4 2) (payloadField p 6 1)
  | 37 => .calProgram (payloadField p 3 1)
  | 38 => .calLock
  | 48 => .loadOpen (payloadField p 3 4) (payloadField p 7 4)
  | 49 => .loadClose
  | 50 => .storeRead (payloadField p 3 4) (payloadField p 7 1)
  | 51 => .storeSet (payloadField p 3 1) (payloadField p 4 1)
  | 56 => .storeInit
  | 57 => .retireRow (payloadField p 3 1) (payloadField p 4 2)
  | 58 => .weakRead (payloadField p 3 1)
  | 59 => .remapRead (payloadField p 3 1) (payloadField p 4 1)
  | 60 => .faultRead
  | 64 => .eventsSet (payloadField p 3 2)
  | 72 => .standbyEnter
  | 73 => .standbyExit
  | 80 => .status
  | 81 => .counters (payloadField p 3 1) (payloadField p 4 1)
  | 82 => .softReset
  | _ => .unknown (payloadField p 0 1)

/-- A control cell's payload as the Management Unit reads it (R157, R182). -/
def payloadControl (p : Payload) : CtlCell := { tag := payloadField p 1 2, op := payloadOp p }

/-- The operation code, as a reply carries it (R160). -/
def opCodeByte : Op → Byte
  | .segDefine _ _ _ _ _ => 0x01
  | .segDelete _ => 0x02
  | .segLock _ _ => 0x03
  | .segRead _ => 0x04
  | .profileWrite _ _ _ _ _ => 0x05
  | .profileClear _ => 0x06
  | .profileRead _ => 0x07
  | .start _ _ => 0x10
  | .stop _ _ => 0x11
  | .flush _ => 0x12
  | .skip _ => 0x13
  | .channelSet _ _ _ _ _ _ _ _ _ _ => 0x14
  | .channelRead _ => 0x15
  | .curveWrite _ _ _ _ => 0x20
  | .curveCommit _ _ => 0x21
  | .curveRead _ _ _ _ => 0x22
  | .curveLoad _ _ => 0x23
  | .calRead _ _ _ => 0x24
  | .calProgram _ => 0x25
  | .calLock => 0x26
  | .loadOpen _ _ => 0x30
  | .loadClose => 0x31
  | .storeRead _ _ => 0x32
  | .storeSet _ _ => 0x33
  | .storeInit => 0x38
  | .retireRow _ _ => 0x39
  | .weakRead _ => 0x3A
  | .remapRead _ _ => 0x3B
  | .faultRead => 0x3C
  | .eventsSet _ => 0x40
  | .standbyEnter => 0x48
  | .standbyExit => 0x49
  | .status => 0x50
  | .counters _ _ => 0x51
  | .softReset => 0x52
  | .unknown code => code

/-- The codes the operation table names (12). -/
def knownCodes : List Nat :=
  [0x01, 0x02, 0x03, 0x04, 0x05, 0x06, 0x07, 0x10, 0x11, 0x12, 0x13, 0x14, 0x15, 0x20, 0x21, 0x22, 0x23, 0x24, 0x25, 0x26, 0x30, 0x31, 0x32, 0x33, 0x38, 0x39, 0x3A, 0x3B, 0x3C, 0x40, 0x48, 0x49, 0x50, 0x51, 0x52]

/-! ### Downstream cells by kind (R182) -/

/-- What a good cell brings to the part (R148). -/
inductive Arrival where
  | stream (c : Chan) (cell : StreamCell)
  | play (c : Chan) (e : Entry)
  | load (data : Payload)
  | control (cell : CtlCell)
  | trigger
  | fill
  | undefinedKind
deriving DecidableEq, Repr

/-- The kind codes of the header table (12.1). -/
def knownKinds : List Nat := [1, 2, 3, 4, 5, 15]

/-- A good cell read by its header (R182): kind in bits 7:4 of byte 0, channel in bits 1:0, START and END in bits
7 and 6 of byte 1. -/
def cellArrival (c : Cell) : Arrival :=
  let chan : Chan := ⟨(c.extractLsb' 296 2).toNat % 4, Nat.mod_lt _ (by decide)⟩
  let payload : Payload := c.extractLsb' 16 256
  match (c.extractLsb' 300 4).toNat with
  | 1 => .stream chan { start := c.getLsbD 295, last := c.getLsbD 294, data := payload }
  | 2 => .play chan (payloadEntry payload)
  | 3 => .load payload
  | 4 => .control (payloadControl payload)
  | 5 => .trigger
  | 15 => .fill
  | _ => .undefinedKind

/-! ### Code numbers (12.2) -/

def ChState.num : ChState → Nat
  | .idle => 0 | .priming => 1 | .armed => 2 | .running => 3 | .stopping => 4 | .halted => 5

def Mode.num : Mode → Nat
  | .play => 0 | .stream => 1

def IdlePolicy.num : IdlePolicy → Nat
  | .holdLast => 0 | .park => 1

def Interp.num : Interp → Nat
  | .nearest => 0 | .linear => 1

def CurveUse.num : CurveUse → Nat
  | .apply => 0 | .bypass => 1

def GroupMode.num : GroupMode → Nat
  | .immediate => 0 | .trigger => 1

def Delin.num : Delin → Nat
  | .hunt => 0 | .presync => 1 | .sync => 2

def ClockState.num : ClockState → Nat
  | .noClock => 0 | .locking => 1 | .locked => 2

def PartState.num : PartState → Nat
  | .active => 0 | .standby => 1 | .exiting => 2

def StoreState.num : StoreState → Nat
  | .uninitialized => 0 | .initializing => 1 | .ready => 2

def PagePolicy.num : PagePolicy → Nat
  | .openPage => 0 | .closePage => 1

def PageState.num : PageState → Nat
  | .blank => 0 | .programmed => 1 | .defective => 2

def SpareState.num : SpareState → Nat
  | .free => 0 | .linked => 1 | .discarded => 2

def eccNum : Ecc → Nat
  | .clean => 0 | .corrected => 1 | .uncorrectable => 2

def Code.num : Code → Nat
  | .ok => 0 | .accepted => 1 | .badOp => 2 | .badArg => 3 | .badIndex => 4 | .notPresent => 5 | .inUse => 6
  | .inLoad => 7 | .protected_ => 8 | .busy => 9 | .notReady => 10 | .standby => 11 | .wrongState => 12
  | .tableFull => 13 | .sparesExhausted => 14 | .blankPage => 15 | .calCorrupt => 16 | .alreadyProgrammed => 17
  | .locked => 18 | .programFailed => 19 | .wrongMode => 20 | .badOffset => 21 | .badLoop => 22 | .badRate => 23
  | .profileAbsent => 24 | .noStream => 25

def Source.num : Source → Nat
  | .channel c => c.val | .store => 4 | .link => 5 | .storeInit => 6 | .retire => 7 | .cal => 8
  | .standbyExit => 9 | .load => 10 | .clock => 11

def Kind.num : Kind → Nat
  | .playDone => 0 | .queueEmpty => 1 | .starved => 2 | .clipped => 3 | .playReject => 4 | .triggerMissed => 5
  | .halted => 6 | .eccThreshold => 7 | .eccUncorrectable => 8 | .refreshOverrun => 9 | .linkState => 10
  | .crcError => 11 | .queueOverrun => 12 | .strayLoad => 13 | .opDone => 14 | .clockState => 15

def Requester.num : Requester → Nat
  | .fetch c => c.val | .management => 4 | .retireCopy => 5 | .loadClose => 6

/-- The index of a credit class (R148). -/
def creditNum : CreditClass → Nat
  | .stream c => c.val | .play c => 4 + c.val | .load => 8 | .control => 9

/-- The slots, and so the credits, of a class (08 section 8.3). -/
def creditSlots : CreditClass → Nat
  | .stream _ => 8 | .play _ => 16 | .load => 4 | .control => 8

/-! ### Code bytes of arguments (12, the operation table) -/

def interpOf (b : Byte) : Option Interp := if b = 0 then some .nearest else if b = 1 then some .linear else none

def curveUseOf (b : Byte) : Option CurveUse := if b = 0 then some .apply else if b = 1 then some .bypass else none

def groupModeOf (b : Byte) : Option GroupMode :=
  if b = 0 then some .immediate else if b = 1 then some .trigger else none

def modeOf (b : Byte) : Option Mode := if b = 0 then some .play else if b = 1 then some .stream else none

def idlePolicyOf (b : Byte) : Option IdlePolicy := if b = 0 then some .holdLast else if b = 1 then some .park else none

def pagePolicyOf (b : Byte) : Option PagePolicy :=
  if b = 0 then some .openPage else if b = 1 then some .closePage else none

/-- A two-valued argument byte: 0 is false, 1 is true, no other value is defined. -/
def flagOf (b : Byte) : Option Bool := if b = 0 then some false else if b = 1 then some true else none

/-- A channel or bank byte, in range 0 to 3. -/
def indexOf (b : Byte) : Option (Fin 4) := if h : b.toNat < 4 then some ⟨b.toNat, h⟩ else none

/-- A set byte: at least one channel, none outside 0 to 3; bit n stands for channel n (R182). -/
def membersOf (b : Byte) : Option (Quad Bool) :=
  if b ≠ 0 ∧ b.toNat < 16 then some ⟨b.getLsbD 0, b.getLsbD 1, b.getLsbD 2, b.getLsbD 3⟩ else none

end Sys2Proof.Machine
end

