-- ==== Sys2Proof/Machine/Flags.lean ====
section
/-! DEFINITION. What many commands raise beside their own effect: saturating counters, events with their details,
credits, and the addressing of channels and banks inside the state (R149, R164, R170, R172). -/

namespace Sys2Proof.Machine

/-! ### Parts of the state -/

def State.chan (s : State) (c : Chan) : Channel := s.chans.get c

def State.setChan (s : State) (c : Chan) (x : Channel) : State := { s with chans := s.chans.set c x }

def State.bank (s : State) (b : BankNo) : Bank := s.store.banks.get b

def State.setStore (s : State) (x : Store) : State := { s with store := x }

def State.setBank (s : State) (b : BankNo) (x : Bank) : State :=
  s.setStore { s.store with banks := s.store.banks.set b x }

/-! ### Counters (R164) -/

/-- One more, staying at 4,294,967,295. -/
def satInc (n : BitVec 32) : BitVec 32 := if n = BitVec.allOnes 32 then n else n + 1

def State.setCnt (s : State) (c : Chan) (k : ChanCounters) : State := s.setChan c { s.chan c with cnt := k }

def countCompletion (c : Chan) (s : State) : State :=
  s.setCnt c { (s.chan c).cnt with completions := satInc (s.chan c).cnt.completions }

def countRejection (c : Chan) (s : State) : State :=
  s.setCnt c { (s.chan c).cnt with rejections := satInc (s.chan c).cnt.rejections }

def countTrigMiss (c : Chan) (s : State) : State :=
  s.setCnt c { (s.chan c).cnt with trigMisses := satInc (s.chan c).cnt.trigMisses }

def countStarved (c : Chan) (s : State) : State :=
  s.setCnt c { (s.chan c).cnt with starved := satInc (s.chan c).cnt.starved }

def countClipped (c : Chan) (s : State) : State :=
  s.setCnt c { (s.chan c).cnt with clipped := satInc (s.chan c).cnt.clipped }

def countUncorrectable (c : Chan) (s : State) : State :=
  s.setCnt c { (s.chan c).cnt with uncorrectable := satInc (s.chan c).cnt.uncorrectable }

/-! ### Events (R172) -/

/-- One more repeat, staying at 65535 (R171). -/
def repeatInc (n : BitVec 16) : BitVec 16 := if n = BitVec.allOnes 16 then n else n + 1

/-- A posting of an enabled kind: folded into the entry of its pair, or appended as a new entry (R172). -/
def foldEvent (src : Source) (kind : Kind) (detail : BitVec 32) (status : Code) : List EvEntry → List EvEntry
  | [] => [{ src := src, kind := kind, count := 1, detail := detail, status := status }]
  | e :: rest =>
    if e.src = src ∧ e.kind = kind then { e with count := repeatInc e.count } :: rest
    else e :: foldEvent src kind detail status rest

/-- A posting reaches the EVU (R172). -/
def post (src : Source) (kind : Kind) (detail : BitVec 32) (status : Code) (s : State) : State :=
  if s.mask.getLsbD kind.num then { s with events := foldEvent src kind detail status s.events } else s

/-! Details (R170, 12.2). DESIGN CHOICE: the bits of a detail that 12.2 does not name are 0, in each of these and in the
details of PLAY_DONE and ECC_UNCORRECTABLE (log 40). -/

/-- STARVED: 30:22 segment, 21:0 phase integer part. -/
def starvedDetail (seg : BitVec 16) (i : Nat) : BitVec 32 :=
  0#1 ++ seg.setWidth 9 ++ BitVec.ofNat 22 i

/-- CLIPPED: 8:0 segment, bit 16 step 5, bit 17 step 7. -/
def clippedDetail (seg : BitVec 16) (step5 step7 : Bool) : BitVec 32 :=
  0#14 ++ BitVec.ofBool step7 ++ BitVec.ofBool step5 ++ 0#7 ++ seg.setWidth 9

/-- PLAY_REJECT: 31:24 rejection code, 15:0 segment as the cell gave it. -/
def rejectDetail (code : Code) (seg : BitVec 16) : BitVec 32 :=
  BitVec.ofNat 8 code.num ++ 0#8 ++ seg

/-- TRIGGER_MISSED: 1:0 group index, bit 8 set for a trigger cell. -/
def missedDetail (g : Fin 4) (fromCell : Bool) : BitVec 32 :=
  0#23 ++ BitVec.ofBool fromCell ++ 0#6 ++ BitVec.ofNat 2 g.val

/-- HALTED: 19:16 state left, 8:0 segment. -/
def haltedDetail (left : ChState) (seg : BitVec 16) : BitVec 32 :=
  0#12 ++ BitVec.ofNat 4 left.num ++ 0#7 ++ seg.setWidth 9

/-- ECC_THRESHOLD: 17:16 bank, 11:0 row. -/
def thresholdDetail (b : BankNo) (row : Nat) : BitVec 32 :=
  0#14 ++ BitVec.ofNat 2 b.val ++ 0#4 ++ BitVec.ofNat 12 row

/-- OP_DONE: 15:0 tag; for RETIRE 22:16 the uncorrectable-group count. -/
def doneDetail (tag : BitVec 16) (bad : Nat) : BitVec 32 :=
  0#9 ++ BitVec.ofNat 7 bad ++ tag

/-- PLAY_REJECT with its rejection counted (R20, R24, R67, R68). -/
def rejectPlay (c : Chan) (code : Code) (seg : BitVec 16) (s : State) : State :=
  post (.channel c) .playReject (rejectDetail code seg) .ok (countRejection c s)

/-! ### Credits (R149) -/

/-- The freed count of the class rises by n, modulo 256. -/
def freeCredits (k : CreditClass) (n : Nat) (s : State) : State :=
  { s with ltx := { s.ltx with freed := s.ltx.freed.set k (s.ltx.freed.get k + BitVec.ofNat 8 n) } }

/-- The received count of the class rises by 1, modulo 256 (R148). -/
def countReceived (k : CreditClass) (s : State) : State :=
  { s with lrx := { s.lrx with received := s.lrx.received.set k (s.lrx.received.get k + 1) } }

/-- A cell dropped as a queue overrun (R150). -/
def dropOverrun (k : CreditClass) (s : State) : State :=
  let s := freeCredits k 1 s
  let s := { s with lrx := { s.lrx with overruns := s.lrx.overruns.set k (satInc (s.lrx.overruns.get k)) } }
  post .link .queueOverrun (BitVec.ofNat 32 (creditNum k)) .ok s

/-- A load cell dropped as a stray load (R151); the detail tells which case. -/
def dropStrayLoad (detail : Nat) (s : State) : State :=
  let s := freeCredits .load 1 s
  let s := { s with lrx := { s.lrx with strayLoads := satInc s.lrx.strayLoads } }
  post .link .strayLoad (BitVec.ofNat 32 detail) .ok s

/-! ### The Segment Directory and the Profile Table (R1, R12) -/

/-- The descriptor at an index, if present. -/
def State.seg (s : State) (i : Nat) : Option Desc := tableGet s.segs i

/-- The descriptor a queued or active entry names. It is present, since its use count is above 0 (R22); the value
for an absent one is never met in a run (log 27). -/
def State.segOf (s : State) (i : BitVec 16) : Desc :=
  (s.seg i.toNat).getD { base := 0, length := 2, loop := none, locked := false, use := 0 }

/-- The loop start, 0 where absent (R1). -/
def Desc.loopStart (d : Desc) : Nat := d.loop.getD 0

/-- The profile record at an index, if present. -/
def State.profile (s : State) (i : BitVec 8) : Option Profile := tableGet s.profs i.toNat

/-- A use count changed (R3, R4). -/
def changeUse (i : BitVec 16) (f : Nat → Nat) (s : State) : State :=
  match s.seg i.toNat with
  | none => s
  | some d => { s with segs := tablePut s.segs i.toNat { d with use := f d.use } }

/-- One more entry names the segment (R3). -/
def raiseUse (i : BitVec 16) (s : State) : State := changeUse i (· + 1) s

/-- One entry that named the segment is released (R4). -/
def lowerUse (i : BitVec 16) (s : State) : State := changeUse i (· - 1) s

/-- Two half-open intervals overlap when each begins before the other one ends (R2). -/
def overlaps (a n b m : Nat) : Bool := decide (a < b + m ∧ b < a + n)

/-- Whether any present descriptor that overlaps [a, a + n) is locked (R2). -/
def lockedOver (s : State) (a n : Nat) : Bool := s.segs.any fun p => overlaps a n p.2.base p.2.length && p.2.locked

/-- Whether any present descriptor that overlaps [a, a + n) has a use count above 0 (R2). -/
def usedOver (s : State) (a n : Nat) : Bool :=
  s.segs.any fun p => overlaps a n p.2.base p.2.length && decide (0 < p.2.use)

end Sys2Proof.Machine
end

