-- ==== Sys2Proof/Machine/Ops.lean ====
section
/-! DEFINITION. The shared operations over the Pattern Store: addresses (R93), stored groups and the Integrity Unit
(R101, R122 to R130), the bank controllers and their arbiters (R95 to R100). -/

namespace Sys2Proof.Machine

/-! ### Addresses (R93, R96) -/

def bankOf (a : Nat) : BankNo := ⟨a / 256 % 4, Nat.mod_lt _ (by decide)⟩
def rowOf (a : Nat) : Nat := a / 1024
def colOf (a : Nat) : Nat := a % 256
/-- The first logical address of the burst position that holds a (R93). -/
def burstAt (a : Nat) : Nat := a / 16 * 16
/-- The first logical address of a logical row (R109, R134). -/
def rowBase (b : BankNo) (row : Nat) : Nat := row * 1024 + b.val * 256

/-- The link of a logical row, if any (R131). -/
def linkOf (links : List Link) (b : BankNo) (row : Nat) : Option Link :=
  links.find? fun l => decide (l.bank = b ∧ l.row = row)

/-- The physical row that serves a logical row: the spare of an ACTIVE link, else the row itself (R96). -/
def physRow (s : State) (b : BankNo) (row : Nat) : Nat :=
  match linkOf s.store.links b row with
  | some l => if l.state = .active then 4096 + l.spare else row
  | none => row

/-- The number of a check group: bank, physical row, and column of its first word (R93). -/
def groupKey (b : BankNo) (prow col : Nat) : Nat := (b.val * 4112 + prow) * 64 + col / 4

/-! ### Stored groups (R101, R122) -/

/-- How many of the 72 bits are wrong. -/
def wrongBits (w : BitVec 72) : Nat := (List.range 72).countP fun i => w.getLsbD i

/-- The 64 data bits as read, wrong bits and all. -/
def asRead (g : Grp) : BitVec 64 := g.data ^^^ g.wrong.setWidth 64

def State.setMem (s : State) (m : List (Nat × Grp)) : State := s.setStore { s.store with mem := m }

/-- One group written with fresh check bits (R101). -/
def writeGroup (key : Nat) (d : BitVec 64) (s : State) : State :=
  s.setMem (tablePut s.store.mem key { data := d, wrong := 0 })

/-- A write burst: four groups in column order (R101). -/
def writeBurst (b : BankNo) (prow col : Nat) (p : Payload) (s : State) : State :=
  (List.range 4).foldl (fun s g => writeGroup (groupKey b prow (col + 4 * g)) (payloadGroup p g) s) s

/-- The 16 words of a write cut short are undefined (R94, R98). -/
def undefineBurst (b : BankNo) (prow col : Nat) (s : State) : State :=
  (List.range 4).foldl (fun s g => s.setMem (tableErase s.store.mem (groupKey b prow (col + 4 * g)))) s

/-- The words with one of the 72 bits as read corrected; where it is a check bit, the words as read (R122). -/
def correctedAt (g : Grp) (bit : Fin 72) : BitVec 64 := asRead { g with wrong := g.wrong ^^^ (1#72 <<< bit.val) }

/-- The words that an outcome delivers of a group with more than two wrong bits (R122): the model leaves free which bit a
CORRECTED outcome corrects (log 8). -/
def deliveredAs (g : Grp) (e : Ecc) (n : Nat) : BitVec 64 :=
  match e with
  | .corrected => correctedAt g (Config.freeBit n)
  | _ => asRead g

/-- The words and the outcome of one group as it is read (R122), with the bits that have newly gone wrong. More
than two wrong bits, and undefined contents, give a free outcome (log 8, log 9). -/
def readGroup (key : Nat) (flip : BitVec 72) (s : State) : State × BitVec 64 × Ecc :=
  match tableGet s.store.mem key with
  | none => ({ s with free := s.free + 1 }, Config.freeWords s.free, Config.freeEcc s.free)
  | some g0 =>
    let g : Grp := { g0 with wrong := g0.wrong ^^^ flip }
    let s := if flip = 0 then s else s.setMem (tablePut s.store.mem key g)
    match wrongBits g.wrong with
    | 0 => (s, g.data, .clean)
    | 1 => (s, g.data, .corrected)
    | 2 => (s, asRead g, .uncorrectable)
    | _ =>
      let e := Config.freeEcc s.free
      ({ s with free := s.free + 1 }, deliveredAs g e s.free, e)

/-! ### The weak row list (R125, R126) -/

def weakIndex (l : List Weak) (b : BankNo) (row : Nat) : Option Nat :=
  l.findIdx? fun w => decide (w.bank = b ∧ w.row = row)

/-- The position of the unflagged entry with the lowest count, the oldest of several (R126). -/
def weakVictim (l : List Weak) : Option Nat :=
  let unflagged := l.filter fun w => !w.flagged
  match (unflagged.map fun w => w.count.toNat).min? with
  | none => none
  | some m => l.findIdx? fun w => !w.flagged && decide (w.count.toNat = m)

/-- The list with a fresh entry for the row at its tail, none where the list is full of flagged entries (R126). -/
def weakAppend (l : List Weak) (b : BankNo) (row : Nat) : Option (List Weak) :=
  let e : Weak := { bank := b, row := row, count := 1, flagged := false }
  if l.length < 16 then some (l ++ [e])
  else match weakVictim l with
    | none => none
    | some i => some (l.eraseIdx i ++ [e])

/-- The list with the row's entry raised by 1, saturating at 255, or made (R126). -/
def weakRaise (l : List Weak) (b : BankNo) (row : Nat) : Option (List Weak) :=
  match weakIndex l b row with
  | some i => some (l.modify i fun w => { w with count := if w.count = 255 then 255 else w.count + 1 })
  | none => weakAppend l b row

/-- An outcome recorded for a row (R126): the new list, and whether the row's entry became flagged. -/
def weakRecord (l : List Weak) (threshold : BitVec 8) (b : BankNo) (row : Nat) (bad : Bool) : List Weak × Bool :=
  match weakRaise l b row with
  | none => (l, false)
  | some l1 =>
    let l2 := if bad then (match weakIndex l1 b row with
      | some i => l1.modify i fun w => { w with count := 255 }
      | none => l1) else l1
    match weakIndex l2 b row with
    | none => (l2, false)
    | some i =>
      match l2[i]? with
      | some w =>
        if !w.flagged && decide (threshold.toNat ≤ w.count.toNat) then
          (l2.modify i fun w => { w with flagged := true }, true)
        else (l2, false)
      | none => (l2, false)

/-- Rows with an ACTIVE link of origin USER are not recorded in the weak row list (R123). -/
def recordsWeak (s : State) (b : BankNo) (row : Nat) : Bool :=
  match linkOf s.store.links b row with
  | some l => !(decide (l.state = .active) && decide (l.origin = .user))
  | none => true

/-- The weak row list updated for an outcome of the row, with ECC_THRESHOLD where the entry becomes flagged
(R123, R126). -/
def updateWeak (b : BankNo) (row : Nat) (bad : Bool) (s : State) : State :=
  if recordsWeak s b row then
    let (l, flagged) := weakRecord s.store.weak s.store.threshold b row bad
    let s := s.setStore { s.store with weak := l }
    if flagged then post .store .eccThreshold (thresholdDetail b row) .ok s else s
  else s

/-! ### The Integrity Unit (R123, R124, R129) -/

/-- What an outcome does beside delivering the group's words (R124, R129). `addr` is the logical address of the
group's first word; bits 31:22 of the detail of ECC_UNCORRECTABLE are 0 by the model's choice (log 40). -/
def recordOutcome (rq : Requester) (b : BankNo) (prow addr : Nat) (e : Ecc) (s : State) : State :=
  match e with
  | .clean => s
  | .corrected =>
    updateWeak b (rowOf addr) false (s.setStore { s.store with corrected := satInc s.store.corrected })
  | .uncorrectable =>
    let s := s.setStore { s.store with
      fault := { present := true, addr := addr, bank := b, row := prow, req := rq,
                 total := satInc s.store.fault.total } }
    updateWeak b (rowOf addr) true (post .store .eccUncorrectable (BitVec.ofNat 32 addr) .ok s)

/-- A read burst of the burst position at logical address `addr`, made in physical row `prow`: its four groups
pass the Integrity Unit in column order (R101, R123). -/
def readBurst (rq : Requester) (b : BankNo) (prow addr : Nat) (flips : Flips) (s : State) :
    State × List (BitVec 64 × Ecc) :=
  (List.range 4).foldl
    (fun (acc : State × List (BitVec 64 × Ecc)) g =>
      let (s, d, e) := readGroup (groupKey b prow (colOf addr + 4 * g)) (flips.extractLsb' (72 * g) 72) acc.1
      (recordOutcome rq b prow (addr + 4 * g) e s, acc.2 ++ [(d, e)]))
    (s, [])

/-- The 16 words of a burst, from its four groups. -/
def burstWords (gs : List (BitVec 64 × Ecc)) : List Sample :=
  gs.flatMap fun p => (List.range 4).map fun k => groupWord p.1 k

/-- How many groups of a burst are UNCORRECTABLE. -/
def badGroups (gs : List (BitVec 64 × Ecc)) : Nat := gs.countP fun p => decide (p.2 = .uncorrectable)

/-! ### Fetch requests as an arbiter sees them (R99, R102, R103) -/

/-- The words ahead of the phase (R103). -/
def wordsAhead (f : Fetch) : Nat := f.window.length - f.stale

/-- A channel is hungry while fewer than 32 words lie ahead of its phase and its cursor is not none (R103). -/
def hungry (f : Fetch) : Bool := decide (wordsAhead f < 32) && f.cursor.isSome

/-- The position of the channel's earliest-issued record that waits at bank b (R100). -/
def waitingRec (b : BankNo) (outs : List FetchRec) : Option Nat :=
  outs.findIdx? fun r => decide (r.st = .waiting) && decide (bankOf r.addr = b)

/-- The position of the channel's record granted at bank b. A bank serves one burst at a time (R100). -/
def grantedRec (b : BankNo) (outs : List FetchRec) : Option Nat :=
  outs.findIdx? fun r => decide (r.st = .granted) && decide (bankOf r.addr = b)

/-! ### Grant decisions (R99, R100) -/

/-- The classes 3 and 5 of the requests that wait in order of arrival (R99). -/
def reqClass : Req → Nat
  | .fetch _ _ => 4
  | .loadWrite _ => 3
  | .closeRead _ => 3
  | .mgmtRead _ => 5
  | .retireRead _ => 5
  | .retireWrite _ _ => 5
  | .initWrite _ => 3
  | .refresh => 6

/-- A bank is free when no work is granted and no close is in progress (R95). -/
def Bank.isFree (k : Bank) : Bool :=
  k.work.isNone && (match k.ctrl with
    | .closed => true
    | .opened _ => true
    | _ => false)

/-- The fetch request a decision would take from class 2 (hungry) or class 4 (not hungry): the first channel after
the round-robin pointer, in the cyclic order 0, 1, 2, 3, that has a request waiting in the class (R100). -/
def fetchChoice (s : State) (b : BankNo) (wantHungry : Bool) : Option Req :=
  let after : List Chan := [(s.bank b).rr + 1, (s.bank b).rr + 2, (s.bank b).rr + 3, (s.bank b).rr]
  after.findSome? fun c =>
    let f := (s.chan c).fetch
    if hungry f = wantHungry then
      match waitingRec b f.outs with
      | some i => (f.outs[i]?).map fun r => Req.fetch c r.addr
      | none => none
    else none

/-- The request an arbiter grants (R100): the lowest-numbered class that has one waiting. -/
def choose (s : State) (b : BankNo) : Option Req :=
  let k := s.bank b
  let listed := fun (n : Nat) => k.waiting.find? fun r => decide (reqClass r = n)
  if 4 ≤ k.debt then some .refresh
  else (fetchChoice s b true).or ((listed 3).or ((fetchChoice s b false).or ((listed 5).or
    (if 1 ≤ k.debt then some .refresh else none))))

/-- The physical row a burst needs (R96). -/
def reqRow (s : State) (b : BankNo) : Req → Nat
  | .fetch _ a => physRow s b (rowOf a)
  | .loadWrite a => physRow s b (rowOf a)
  | .closeRead a => physRow s b (rowOf a)
  | .mgmtRead a => physRow s b (rowOf a)
  | .retireRead a => physRow s b (rowOf a)
  | .retireWrite row _ => row
  | .initWrite a => physRow s b (rowOf a)
  | .refresh => 0

/-- The controller state in which granted work begins at a CLOSED bank (R95). -/
def beginClosed (s : State) (b : BankNo) : Req → Ctrl
  | .refresh => .refreshing
  | r => .opening (reqRow s b r)

/-- The controller state right after a grant (R95): a burst to the open row begins at once, other work at an open
row first closes it. -/
def beginGrant (s : State) (b : BankNo) (r : Req) : Ctrl :=
  match (s.bank b).ctrl with
  | .opened row => if r ≠ .refresh ∧ reqRow s b r = row then .opened row else .closing
  | _ => beginClosed s b r

/-- A grant commits the bank to the work (R100). -/
def grant (b : BankNo) (r : Req) (s : State) : State :=
  let ctrl := beginGrant s b r
  let k := s.bank b
  let work : Work := { req := r, closePage := decide (s.store.policy = .closePage), closeAfter := false }
  match r with
  | .fetch c _ =>
    let ch := s.chan c
    let outs := match waitingRec b ch.fetch.outs with
      | some i => ch.fetch.outs.modify i fun x => { x with st := .granted }
      | none => ch.fetch.outs
    (s.setBank b { k with ctrl := ctrl, work := some work, rr := c }).setChan c
      { ch with fetch := { ch.fetch with outs := outs } }
  | _ => s.setBank b { k with ctrl := ctrl, work := some work, waiting := k.waiting.erase r }

/-- A grant decision, made where the bank is free, the part ACTIVE (R178) and a request waits (R100). -/
def decideBank (b : BankNo) (s : State) : State :=
  if (s.bank b).isFree && decide (s.part = .active) && !s.resetLow then
    match choose s b with
    | some r => grant b r s
    | none => s
  else s

/-- A request of class 3 or 5 reaches its bank's arbiter (R99, R100). -/
def request (b : BankNo) (r : Req) (s : State) : State :=
  decideBank b (s.setBank b { s.bank b with waiting := (s.bank b).waiting ++ [r] })

/-- Requests withdrawn from a bank's arbiter. -/
def withdraw (p : Req → Bool) (b : BankNo) (s : State) : State :=
  s.setBank b { s.bank b with waiting := (s.bank b).waiting.filter fun r => !p r }

/-- A bank that reaches CLOSED: outside ACTIVE it enters SELF_REFRESH with its debt 0 (R121, R178), otherwise its
arbiter decides. -/
def reachClosed (b : BankNo) (s : State) : State :=
  if s.part = .active then decideBank b (s.setBank b { s.bank b with ctrl := .closed, work := none })
  else s.setBank b { s.bank b with ctrl := .selfRefresh, work := none, debt := 0 }

/-- The end of a burst (R95, R97, R136, R178): the row is closed under CLOSE_PAGE, on a retire's demand and outside
ACTIVE, else it stays open and the arbiter decides. -/
def endBurst (b : BankNo) (s : State) : State :=
  let k := s.bank b
  match k.work with
  | none => s
  | some w =>
    if w.closePage || w.closeAfter || decide (s.part ≠ .active) then
      s.setBank b { k with ctrl := .closing, work := none }
    else decideBank b (s.setBank b { k with work := none })

/-- The work whose burst is in progress at a bank, with its open physical row (R95). -/
def burstOf (s : State) (b : BankNo) : Option (Req × Nat) :=
  match (s.bank b).ctrl, (s.bank b).work with
  | .opened row, some w => some (w.req, row)
  | _, _ => none

/-- A close demanded of a bank that is free (R95). -/
def closeFree (b : BankNo) (s : State) : State :=
  match (s.bank b).ctrl, (s.bank b).work with
  | .opened _, none => s.setBank b { s.bank b with ctrl := .closing }
  | _, _ => s

/-- A retire's completion demands a close of the old source (R136). -/
def demandClose (b : BankNo) (source : Nat) (s : State) : State :=
  let k := s.bank b
  let late := s.setBank b { k with work := k.work.map fun w => { w with closeAfter := true } }
  match k.ctrl with
  | .opened row => if row = source then (if k.work.isNone then closeFree b s else late) else s
  | .opening row => if row = source then late else s
  | _ => s

/-- Whether a request of some kind waits or is granted in any bank. -/
def anyRequest (p : Req → Bool) (s : State) : Bool :=
  four.any fun b => (s.bank b).waiting.any p || (match (s.bank b).work with
    | some w => p w.req
    | none => false)

/-- Whether work of some kind is granted in any bank. -/
def anyGranted (p : Req → Bool) (s : State) : Bool :=
  four.any fun b => match (s.bank b).work with
    | some w => p w.req
    | none => false

/-- The bank in which a burst of some kind is in progress. -/
def burstBank (p : Req → Bool) (s : State) : Option BankNo :=
  four.find? fun b => match burstOf s b with
    | some (r, _) => p r
    | none => false

def Req.isFetch : Req → Bool
  | .fetch _ _ => true
  | _ => false

def Req.isLoadWrite : Req → Bool
  | .loadWrite _ => true
  | _ => false

def Req.isCloseRead : Req → Bool
  | .closeRead _ => true
  | _ => false

def Req.isMgmtRead : Req → Bool
  | .mgmtRead _ => true
  | _ => false

def Req.isRetireRead : Req → Bool
  | .retireRead _ => true
  | _ => false

def Req.isRetireWrite : Req → Bool
  | .retireWrite _ _ => true
  | _ => false

end Sys2Proof.Machine
end

