-- ==== Sys2Proof/Machine/Fetch.lean ====
section
/-! DEFINITION. The Fetch Units and the sample windows (R102 to R107, R130). -/

namespace Sys2Proof.Machine

/-- The index at which an entry's first pass begins; an absent start index means 0 (R18). -/
def Entry.startIdx (e : Entry) : Nat :=
  match e.start with
  | some v => v.toNat
  | none => 0

def State.setFetch (s : State) (c : Chan) (f : Fetch) : State := s.setChan c { s.chan c with fetch := f }

/-- The entry the sequencer presents as NEXT: the queue head in PRIMING, ARMED and RUNNING (R104). -/
def presentedNext (ch : Channel) : Option Entry :=
  match ch.st with
  | .priming => ch.queue.head?
  | .armed => ch.queue.head?
  | .running => ch.queue.head?
  | _ => none

/-- Words of the entry with this tag are held or being fetched, or the cursor is on it (R104). -/
def begun (next : Bool) (f : Fetch) : Bool :=
  f.window.any (fun w => w.next == next) || f.outs.any (fun r => r.next == next && !r.discard) ||
    (match f.cursor with
      | some k => k.next == next
      | none => false)

/-- A cursor at an entry's start index with all its passes (R104). -/
def cursorAt (next : Bool) (e : Entry) : Cursor := { next := next, idx := e.startIdx, passes := e.passes }

/-- Behind a fully fetched CURRENT entry the cursor moves to the NEXT entry once one is presented (R104). -/
def presentNext (c : Chan) (s : State) : State :=
  let ch := s.chan c
  match ch.fetch.cursor, ch.ctx, presentedNext ch with
  | none, some _, some e =>
    if begun true ch.fetch then s else s.setFetch c { ch.fetch with cursor := some (cursorAt true e) }
  | _, _, _ => s

/-- The last segment index kept by the burst for index i (R104). -/
def burstLast (d : Desc) (i : Nat) : Nat := min (i / 16 * 16 + 15) (d.length - 1)

/-- Where the cursor goes when its burst is issued, none at the end of a bounded entry's last pass (R104). -/
def cursorAfter (d : Desc) (k : Cursor) : Option Cursor :=
  if burstLast d k.idx + 1 < d.length then some { k with idx := burstLast d k.idx + 1 }
  else if k.passes = 0 then some { k with idx := d.loopStart }
  else if 1 < k.passes.toNat then some { k with idx := d.loopStart, passes := k.passes - 1 }
  else none

/-- The entry a tag names: NEXT the queue head, CURRENT the active entry (R102). -/
def taggedEntry (ch : Channel) (next : Bool) : Option Entry :=
  if next then ch.queue.head? else ch.ctx.map fun x => x.entry

/-- Room for one more burst (R105). -/
def canIssue (f : Fetch) : Bool :=
  decide (f.outs.length < 2) && decide (16 * (f.outs.length + 1) ≤ 64 - f.window.length)

/-- One burst issued for the cursor, where R105 allows it: a WAITING record, its request at the bank's arbiter,
and the cursor moved on. -/
def issueOne (c : Chan) (s : State) : State :=
  let ch := s.chan c
  match ch.fetch.cursor with
  | none => s
  | some k =>
    match taggedEntry ch k.next with
    | none => s
    | some e =>
      if canIssue ch.fetch then
        let d := s.segOf e.seg
        let addr := burstAt (d.base + k.idx)
        let r : FetchRec := { next := k.next, addr := addr, first := k.idx, last := burstLast d k.idx,
                              st := .waiting, discard := false }
        let s := s.setFetch c { ch.fetch with outs := ch.fetch.outs ++ [r], cursor := cursorAfter d k }
        decideBank (bankOf addr) (presentNext c s)
      else s

/-- The Fetch Unit issues what it may; the condition is tested again after each issue (R105). -/
def fetchIssue (c : Chan) (s : State) : State := issueOne c (issueOne c (presentNext c s))

/-- Words placed at the tail of the window in index order; a word of an UNCORRECTABLE group is placed as the
substitute value, any other becomes it (R106, R130). -/
def placeWords (next : Bool) : List (Sample × Bool) → List FetchWord × Sample → List FetchWord × Sample
  | [], acc => acc
  | (w, bad) :: rest, (win, subst) =>
    if bad then placeWords next rest (win ++ [{ val := subst, next := next }], subst)
    else placeWords next rest (win ++ [{ val := w, next := next }], w)

/-- The first record is placed if it has RETURNED (R106). -/
def placeHead (c : Chan) (s : State) : State :=
  let ch := s.chan c
  match ch.fetch.outs with
  | [] => s
  | r :: rest =>
    match r.st with
    | .returned words =>
      let (win, subst) := placeWords r.next words (ch.fetch.window, ch.subst)
      let late := if r.next then 0 else min ch.fetch.owed words.length
      s.setChan c { ch with
        subst := subst,
        fetch := { ch.fetch with window := win, outs := rest, stale := ch.fetch.stale + late,
                                 owed := ch.fetch.owed - late } }
    | _ => s

/-- Records are placed in issue order as far as they have RETURNED (R106). A list holds at most two. -/
def placeReturned (c : Chan) (s : State) : State := placeHead c (placeHead c s)

/-- The records given up (R107): WAITING ones are withdrawn, GRANTED ones are marked for discard, RETURNED ones
leave at once. -/
def giveUp (p : FetchRec → Bool) (outs : List FetchRec) : List FetchRec :=
  outs.filterMap fun r =>
    if p r then (match r.st with
      | .granted => some { r with discard := true }
      | _ => none)
    else some r

/-- The cursor leaves the entry with this tag. -/
def cursorOff (next : Bool) (k : Option Cursor) : Option Cursor :=
  match k with
  | some k => if k.next = next then none else some k
  | none => none

/-- Everything given up: STOP IMMEDIATE, STOP on PRIMING or ARMED, clock loss, soft reset (R107). -/
def fetchReleaseAll (f : Fetch) : Fetch :=
  { window := [], stale := 0, owed := 0, outs := giveUp (fun _ => true) f.outs, cursor := none }

/-- The material of one tag given up: CURRENT at SKIP and at an entry end (log 15), NEXT at a discard and at STOP
AT_END (R106, R107). -/
def fetchReleaseTag (next : Bool) (f : Fetch) : Fetch :=
  { f with
    window := f.window.filter fun w => w.next != next,
    stale := if next then f.stale else 0,
    owed := if next then f.owed else 0,
    outs := giveUp (fun r => r.next == next) f.outs,
    cursor := cursorOff next f.cursor }

/-- At its activation the NEXT entry's words, records and cursor become CURRENT (R104). -/
def fetchRetag (f : Fetch) : Fetch :=
  { f with
    window := f.window.map fun w => { w with next := false },
    outs := f.outs.map fun r => { r with next := false },
    cursor := f.cursor.map fun k => { k with next := false } }

/-- The words of the current entry that the window holds from the phase onward. -/
def liveCurrent (f : Fetch) : Nat := (f.window.drop f.stale).countP fun w => !w.next

/-- The phase moves over n words of the current entry's play order: the words before it leave the window (R106);
those not yet received are owed (log 16). -/
def advanceWindow (n : Nat) (f : Fetch) : Fetch :=
  let d := min n (liveCurrent f)
  { f with window := f.window.drop (f.stale + d), stale := 0, owed := f.owed + (n - d) }

/-- The k-th word from the phase onward, where the window holds it for the current entry (R47). -/
def windowWord (f : Fetch) (k : Nat) : Option Sample :=
  if f.owed = 0 then
    match f.window[f.stale + k]? with
    | some w => if w.next then none else some w.val
    | none => none
  else none

/-- The words a returned burst keeps, with whether their group was UNCORRECTABLE (R104, R129). -/
def keptWords (r : FetchRec) (gs : List (BitVec 64 × Ecc)) : List (Sample × Bool) :=
  let all := gs.flatMap fun p => (List.range 4).map fun k => (groupWord p.1 k, decide (p.2 = .uncorrectable))
  (all.take (r.last % 16 + 1)).drop (r.first % 16)

/-- A fetch burst in progress at bank b completes (R106, R107, R129). -/
def fetchReturn (c : Chan) (b : BankNo) (prow addr : Nat) (flips : Flips) (s : State) : State :=
  let (s, gs) := readBurst (.fetch c) b prow addr flips s
  let f := (s.chan c).fetch
  match grantedRec b f.outs with
  | none => s
  | some i =>
    match f.outs[i]? with
    | none => s
    | some r =>
      if r.discard then placeReturned c (s.setFetch c { f with outs := f.outs.eraseIdx i })
      else
        let s := (List.range (badGroups gs)).foldl (fun s _ => countUncorrectable c s) s
        placeReturned c (s.setFetch c { f with
          outs := f.outs.modify i fun r => { r with st := .returned (keptWords r gs) } })

end Sys2Proof.Machine
end

