-- ==== Sys2Proof/Machine/Sequencer.lean ====
section
/-! DEFINITION. The channel sequencers and Start Control: activation, release, flush, completion, streams' opening
and the NO_STREAM drop, arming and start groups (R22 to R35, R39 to R42, R66 to R75, R82). -/

namespace Sys2Proof.Machine

/-! ### The Curve Unit's part in a boundary (R78, R82) -/

/-- The commit: the pending curve becomes the active curve and the flag is cleared (R78). -/
def commitCurve (c : Chan) (s : State) : State :=
  s.setChan c { s.chan c with active := (s.chan c).pendCurve, commitReq := false }

/-- The signal of an activation or an opening: a requested commit is made (R82). -/
def boundarySignal (c : Chan) (s : State) : State := if (s.chan c).commitReq then commitCurve c s else s

/-! ### Activation (R23, R24, R27) -/

/-- Where an activated entry starts (R27): with SPLICE at an entry end its start index plus the overshoot, clamped
to the last sample, with the fraction kept; otherwise its start index with fraction 0. -/
def startPhase (e : Entry) (length : Nat) (offer : Option (Nat × BitVec 32)) : Nat × BitVec 32 :=
  match offer with
  | none => (e.startIdx, 0)
  | some (ov, f) =>
    if e.splice then
      (if e.startIdx + ov < length then e.startIdx + ov else length - 1, f)
    else (e.startIdx, 0)

/-- The context of an activated entry (R23 steps 2 to 6). -/
def ctxOf (e : Entry) (snap : Profile) (phase : Nat × BitVec 32) : Ctx :=
  { entry := e, snap := snap, i := phase.1, f := phase.2, passes := e.passes,
    marker := if e.mark then e.markWidth else 0, done := none }

/-- The Fetch Unit's side of an activation (R104, R106): the entry's material becomes CURRENT, or its fetch begins
at the start index; the words before the starting index leave. -/
def fetchActivate (e : Entry) (phaseI : Nat) (f : Fetch) : Fetch :=
  let f := fetchRetag f
  let f := if begun false f then f else { f with cursor := some (cursorAt false e) }
  advanceWindow (phaseI - e.startIdx) f

/-- The head of the queue leaves it, freeing its credit (R23 step 1). -/
def popQueue (c : Chan) (rest : List Entry) (s : State) : State :=
  freeCredits (.play c) 1 (s.setChan c { s.chan c with queue := rest })

/-- An entry whose profile is absent is discarded (R24). -/
def discardEntry (c : Chan) (e : Entry) (s : State) : State :=
  let s := rejectPlay c .profileAbsent e.seg (lowerUse e.seg s)
  placeReturned c (s.setFetch c (fetchReleaseTag true (s.chan c).fetch))

/-- An entry becomes active with the given snapshot (R23 steps 2 to 7). -/
def installEntry (c : Chan) (e : Entry) (snap : Profile) (offer : Option (Nat × BitVec 32)) (s : State) : State :=
  let ch := s.chan c
  let ph := startPhase e (s.segOf e.seg).length offer
  boundarySignal c (s.setChan c { ch with
    ctx := some (ctxOf e snap ph), clippedFlag := false, fetch := fetchActivate e ph.1 ch.fetch })

/-- Activation at one point (R23): the head entry is activated, or discarded and the new head taken (R24). The
overshoot is offered to the first entry activated (R27). It ends with an empty context when the queue runs out. -/
def activateFrom (offer : Option (Nat × BitVec 32)) (c : Chan) : List Entry → State → State
  | [], s => s
  | e :: rest, s =>
    let s := popQueue c rest s
    match s.profile e.prof with
    | some p => installEntry c e p offer s
    | none => activateFrom offer c rest (discardEntry c e s)

def activate (offer : Option (Nat × BitVec 32)) (c : Chan) (s : State) : State :=
  activateFrom offer c (s.chan c).queue s

/-! ### Release and flush (R4, R34, R75) -/

def State.setSt (s : State) (c : Chan) (x : ChState) : State := s.setChan c { s.chan c with st := x }

/-- The marker bit is deasserted (R28). -/
def markerOff (c : Chan) (s : State) : State :=
  s.setChan c { s.chan c with port := { (s.chan c).port with marker := false } }

/-- The play context or the open stream is released: a held entry's use count falls by 1 (R4, R22), and the marker
bit is deasserted (R28, log 17). -/
def releaseCtx (c : Chan) (s : State) : State :=
  let s := match (s.chan c).ctx with
    | some x => lowerUse x.entry.seg s
    | none => s
  markerOff c (s.setChan c { s.chan c with ctx := none, stream := none })

/-- The play queue is flushed (R34). -/
def flushQueue (c : Chan) (s : State) : State :=
  let q := (s.chan c).queue
  let s := q.foldl (fun s e => lowerUse e.seg s) s
  freeCredits (.play c) q.length (s.setChan c { s.chan c with queue := [] })

/-- The intake queue is flushed (R75). -/
def flushIntake (c : Chan) (s : State) : State :=
  let n := (s.chan c).intake.length
  freeCredits (.stream c) n (s.setChan c { s.chan c with intake := [] })

/-- The flush of a channel: the intake queue in STREAM mode instead of the play queue (R33, R34, R75). -/
def flushChannel (c : Chan) (s : State) : State :=
  match (s.chan c).cfg.mode with
  | .play => flushQueue c s
  | .stream => flushIntake c s

/-- The window is emptied and everything fetched for the channel given up (R107). -/
def emptyWindow (c : Chan) (s : State) : State := s.setFetch c (fetchReleaseAll (s.chan c).fetch)

/-- QUEUE_EMPTY for a channel that goes IDLE (R26, R35, R73). -/
def goIdleEmpty (c : Chan) (s : State) : State := post (.channel c) .queueEmpty 0 .ok (s.setSt c .idle)

/-! ### Moving on from an ended or skipped entry (R26, R35) -/

/-- The active entry's context is released and its words leave the window (R26 step 3, R35, R107). -/
def releaseActive (c : Chan) (s : State) : State :=
  let s := releaseCtx c s
  placeReturned c (s.setFetch c (fetchReleaseTag false (s.chan c).fetch))

/-- What follows the release of the active entry: the next entry, or IDLE with QUEUE_EMPTY; in STOPPING the queue
is flushed first (R26 step 4, R35). -/
def moveOn (offer : Option (Nat × BitVec 32)) (c : Chan) (s : State) : State :=
  match (s.chan c).st with
  | .stopping => goIdleEmpty c (emptyWindow c (flushChannel c s))
  | _ =>
    let s := activate offer c s
    if (s.chan c).ctx.isSome then fetchIssue c s else goIdleEmpty c (emptyWindow c s)

/-- The completion actions of an entry whose entry-done flag is set (R26). Bits 31:9 of the detail of PLAY_DONE are 0 by
the model's choice (log 40). -/
def completeEntry (c : Chan) (s : State) : State :=
  match (s.chan c).ctx with
  | none => s
  | some x =>
    match x.done with
    | none => s
    | some offer =>
      let s := countCompletion c s
      let s := if x.entry.notify then post (.channel c) .playDone (x.entry.seg.setWidth 32) .ok s else s
      moveOn (some offer) c (releaseActive c s)

/-- An operation or event at several channels finds each of them as the completion actions leave it: those of the named
channels whose entry-done flag is set come first, from channel 0 to 3 (R26, log 13, log 14). -/
def completeMembers (m : Quad Bool) (s : State) : State :=
  four.foldl (fun s c => if m.get c then completeEntry c s else s) s

/-! ### Start groups (R39 to R42) -/

def State.setGroup (s : State) (g : Fin 4) (x : Option Group) : State := { s with groups := s.groups.set g x }

/-- The group of a channel (R32: at most one). -/
def groupOf (s : State) (c : Chan) : Option (Fin 4) :=
  four.find? fun g => match s.groups.get g with
    | some x => x.members.get c
    | none => false

/-- Every member is ARMED (R40). -/
def allArmed (s : State) (x : Group) : Bool :=
  four.all fun c => !x.members.get c || decide ((s.chan c).st = .armed)

/-- STC examines a group: complete when every member is ARMED, start-pending at once if IMMEDIATE (R40). -/
def examineGroup (g : Fin 4) (s : State) : State :=
  match s.groups.get g with
  | none => s
  | some x =>
    if allArmed s x then
      s.setGroup g (some { x with complete := true, pending := x.pending || decide (x.mode = .immediate) })
    else s

/-- A channel becomes ARMED and reports it to STC (R30, R40). -/
def becomeArmed (c : Chan) (s : State) : State :=
  let s := s.setSt c .armed
  match groupOf s c with
  | some g => examineGroup g s
  | none => s

/-- A member leaves its group: an empty group is removed, another is examined (R41). -/
def leaveGroup (c : Chan) (s : State) : State :=
  match groupOf s c with
  | none => s
  | some g =>
    match s.groups.get g with
    | none => s
    | some x =>
      let x := { x with members := x.members.set c false }
      if x.members.toList.any id then examineGroup g (s.setGroup g (some x)) else s.setGroup g none

/-- How many words the play order of an entry contains, none where it is unbounded (R30). -/
def playOrderLength (d : Desc) (e : Entry) : Option Nat :=
  if e.passes = 0 then none
  else some (d.length - e.startIdx + (e.passes.toNat - 1) * (d.length - d.loopStart))

/-- The window is primed: it holds 32 words of the first entry, or all of them (R30). -/
def primed (s : State) (c : Chan) : Bool :=
  match (s.chan c).ctx with
  | none => false
  | some x =>
    let held := (s.chan c).fetch.window.countP fun w => !w.next
    match playOrderLength (s.segOf x.entry.seg) x.entry with
    | none => decide (32 ≤ held)
    | some n => decide (min 32 n ≤ held)

/-- A PRIMING channel in PLAY mode arms when its window is primed (R30); in STREAM mode when its open stream has
two cells, or its END cell, in the intake (R74). -/
def armIfReady (c : Chan) (s : State) : State :=
  let ch := s.chan c
  if ch.st = .priming then
    match ch.cfg.mode with
    | .play => if primed s c then becomeArmed c s else s
    | .stream =>
      match ch.stream with
      | none => s
      | some x => if 2 ≤ ch.intake.length ∨ x.endPos.isSome then becomeArmed c s else s
  else s

/-- A trigger is taken at STC (R42). -/
def takeTrigger (fromCell : Bool) (s : State) : State :=
  four.foldl (fun s g =>
    match s.groups.get g with
    | none => s
    | some x =>
      if x.mode = .trigger ∧ x.pending = false then
        if x.complete then s.setGroup g (some { x with pending := true })
        else four.foldl (fun s c =>
          if x.members.get c then
            countTrigMiss c (post (.channel c) .triggerMissed (missedDetail g fromCell) .ok s)
          else s) s
      else s) s

/-! ### Streams (R66 to R75) -/

/-- The end position that the cells behind a START cell at the head set, if any; `n` cells of the stream have been
counted so far (R70). -/
def endFrom (n : Nat) : List StreamCell → Option Nat
  | [] => none
  | x :: rest =>
    if x.start then some (16 * n)
    else if x.last then some (16 * (n + 1))
    else endFrom (n + 1) rest

/-- The end position set by the cells held at an opening, the START cell first (R69 step 3, R70). -/
def endAtOpening : List StreamCell → Option Nat
  | [] => none
  | x :: rest => if x.last then some 16 else endFrom 1 rest

/-- A stream opens on the START cell at the head of the intake (R69). -/
def openStream (c : Chan) (snap : Profile) (s : State) : State :=
  let ch := s.chan c
  boundarySignal c (s.setChan c { ch with
    stream := some { snap := snap, prof := ch.cfg.prof, incI := ch.cfg.incI, incF := ch.cfg.incF, i := 0, f := 0,
                     endPos := endAtOpening ch.intake },
    clippedFlag := false })

/-- The head of the intake leaves it, freeing its credit (R66). -/
def popIntake (c : Chan) (rest : List StreamCell) (s : State) : State :=
  freeCredits (.stream c) 1 (s.setChan c { s.chan c with intake := rest })

/-- With no stream open: cells without START at the head are dropped NO_STREAM (R68); at an opening point the START
cell is taken, opening a stream or being dropped PROFILE_ABSENT (R69). -/
def settleFrom (opening : Bool) (c : Chan) : List StreamCell → State → State
  | [], s => s
  | x :: rest, s =>
    if x.start then
      if opening then
        match s.profile (s.chan c).cfg.prof with
        | some p => openStream c p s
        | none => settleFrom opening c rest (popIntake c rest (rejectPlay c .profileAbsent 0 s))
      else s
    else settleFrom opening c rest (popIntake c rest (rejectPlay c .noStream 0 s))

def settleIntake (opening : Bool) (c : Chan) (s : State) : State :=
  if (s.chan c).stream.isNone then settleFrom opening c (s.chan c).intake s else s

/-- An open stream ends (R73): its cells leave, a completion is counted, the context empties; then the next stream
opens, or the channel goes IDLE. -/
def endStream (c : Chan) (endPos : Nat) (s : State) : State :=
  let ch := s.chan c
  let gone := min (endPos / 16) ch.intake.length
  let s := freeCredits (.stream c) gone (s.setChan c { ch with intake := ch.intake.drop gone, stream := none })
  let s := countCompletion c s
  match ch.st with
  | .stopping => goIdleEmpty c (flushIntake c (settleIntake false c s))
  | _ =>
    let s := settleIntake true c s
    if (s.chan c).stream.isSome then s else goIdleEmpty c s

/-- A stream cell joins the tail of the intake (R66) and acts on the open stream's end position (R70), on the head
test (R68), on the opening (R69) and on arming (R74). -/
def joinIntake (c : Chan) (cell : StreamCell) (s : State) : State :=
  let ch := s.chan c
  let n := ch.intake.length
  match ch.stream with
  | none =>
    armIfReady c (settleIntake (decide (ch.st = .priming)) c (s.setChan c { ch with intake := ch.intake ++ [cell] }))
  | some x =>
    let endPos := match x.endPos with
      | some e => some e
      | none => if cell.start then some (16 * n) else if cell.last then some (16 * (n + 1)) else none
    let s := s.setChan c { ch with intake := ch.intake ++ [cell], stream := some { x with endPos := endPos } }
    match endPos with
    | some e => if e ≤ x.i then endStream c e s else armIfReady c s
    | none => armIfReady c s

/-! ### Stopping and halting (R31, R33, R75) -/

/-- STOP on one channel, as the completion actions of an ended entry have left it (R33, R75). -/
def stopChannel (atEnd : Bool) (c : Chan) (s : State) : State :=
  match (s.chan c).st with
  | .idle => flushChannel c s
  | .halted => (flushChannel c s).setSt c .idle
  | .priming => (flushChannel c (emptyWindow c (releaseCtx c (leaveGroup c (s.setSt c .idle)))))
  | .armed => (flushChannel c (emptyWindow c (releaseCtx c (leaveGroup c (s.setSt c .idle)))))
  | .running =>
    if atEnd then
      let s := s.setSt c .stopping
      placeReturned c (s.setFetch c (fetchReleaseTag true (s.chan c).fetch))
    else (flushChannel c (emptyWindow c (releaseCtx c s))).setSt c .idle
  | .stopping =>
    if atEnd then s else (flushChannel c (emptyWindow c (releaseCtx c s))).setSt c .idle

/-- The segment index of a held play context, 0 where it is empty or holds a stream (R170). -/
def heldSeg (ch : Channel) : BitVec 16 :=
  match ch.ctx with
  | some x => x.entry.seg
  | none => 0

/-- Clock loss at one channel, as the completion actions of an ended entry have left it (R31, R75). -/
def haltChannel (c : Chan) (s : State) : State :=
  let ch := s.chan c
  match ch.st with
  | .idle => s
  | .halted => s
  | left =>
    let s := leaveGroup c ((emptyWindow c (releaseCtx c s)).setSt c .halted)
    settleIntake false c (post (.channel c) .halted (haltedDetail left (heldSeg ch)) .ok s)

/-- A member of a new group becomes PRIMING (R32): it activates its queue head, or opens its stream, and may arm at
once. -/
def primeMember (c : Chan) (s : State) : State :=
  let s := s.setSt c .priming
  match (s.chan c).cfg.mode with
  | .play =>
    let s := activate none c s
    armIfReady c (if (s.chan c).ctx.isSome then fetchIssue c s else s)
  | .stream => armIfReady c (settleIntake true c s)

end Sys2Proof.Machine
end

