-- ==== Sys2Proof/Machine/Shaping.lean ====
section
/-! DEFINITION. What happens at an output tick: the shaping arithmetic (R44 to R57), the marker (R58), the phase
advance (R59 to R61, R72), starved ticks (R62, R71), idle and park codes (R63, R64), the output tick and the sample
clock's periods (R40, R176, R177). All divisions by powers of two are floor divisions (00 section 7). -/

namespace Sys2Proof.Machine

/-! ### The arithmetic of steps 2 to 7 -/

/-- A value clamped to [lo, hi] (00 section 7). -/
def clampInt (lo hi v : Int) : Int := if v < lo then lo else if hi < v then hi else v

/-- Step 2 (R48, R49): v from the pair and the upper 16 bits of the fraction. -/
def interpolate (mode : Interp) (y0 y1 : Int) (f : BitVec 32) : Int :=
  match mode with
  | .nearest => y0
  | .linear => y0 + ((y1 - y0) * ((f.toNat / 65536 : Nat) : Int) + 32768) / 65536

/-- Step 3 (R50). -/
def applyGain (v g : Int) : Int := (v * g + 8192) / 16384

/-- Breakpoint T[k] (R53). -/
def breakpoint (t : Curve) (k : Nat) : Int := (t.getD k 0).toInt

/-- Step 6 with APPLY (R53): straight-line interpolation in the interval of c. -/
def evalCurve (t : Curve) (c : Int) : Int :=
  let u := (c + 32768).toNat
  let k := u / 2048
  let r : Int := ((u % 2048 : Nat) : Int)
  breakpoint t k + ((breakpoint t (k + 1) - breakpoint t k) * r + 1024) / 2048

/-- What steps 2 to 7 give: the value, and whether step 5 and step 7 changed theirs (R52, R55, R56). -/
structure Shaped where
  out : Int
  clip5 : Bool
  clip7 : Bool
deriving DecidableEq, Repr

/-- Steps 2 to 7 (R44). -/
def shape (snap : Profile) (t : Curve) (lo hi : Int) (y0 y1 : Int) (f : BitVec 32) : Shaped :=
  let v := interpolate snap.interp y0 y1 f
  let a := applyGain v snap.gain.toInt
  let b := a + snap.offset.toInt
  let c := clampInt (-32768) 32767 b
  let e := match snap.curve with
    | .apply => evalCurve t c
    | .bypass => c
  let out := clampInt lo hi e
  { out := out, clip5 := decide (c ≠ b), clip7 := decide (out ≠ e) }

/-- Step 8 (R57): offset binary, 32768 above the value in sample units. -/
def laneCode (v : BitVec 16) : BitVec 16 := v + 0x8000

/-! ### The advance of step 9 -/

/-- The add-with-carry of R59: by how much the integer part rises, and the new fraction. -/
def phaseAdd (f : BitVec 32) (incI : BitVec 4) (incF : BitVec 32) : Nat × BitVec 32 :=
  (incI.toNat + (f.toNat + incF.toNat) / 2 ^ 32, f + incF)

/-- Step 9 over a play context (R59, R60, R61). -/
def advanceCtx (d : Desc) (x : Ctx) : Ctx :=
  let (n, f) := phaseAdd x.f x.entry.incI x.entry.incF
  let i := x.i + n
  if i < d.length then { x with i := i, f := f }
  else if x.passes = 1 then { x with done := some (i - d.length, f) }
  else { x with i := i - (d.length - d.loopStart), f := f,
                passes := if x.passes = 0 then 0 else x.passes - 1 }

/-! ### Presenting codes -/

/-- A code is presented with a marker bit, and becomes the held code (R45, R57). -/
def present (c : Chan) (v : BitVec 16) (marker : Bool) (s : State) : State :=
  s.setChan c { s.chan c with held := v, port := { code := laneCode v, marker := marker } }

/-- A clipped tick: counted, and posted once for the entry or stream (R56). -/
def noteClip (c : Chan) (seg : BitVec 16) (r : Shaped) (s : State) : State :=
  if r.clip5 || r.clip7 then
    let s := countClipped c s
    if (s.chan c).clippedFlag then s
    else post (.channel c) .clipped (clippedDetail seg r.clip5 r.clip7) .ok
      (s.setChan c { s.chan c with clippedFlag := true })
  else s

/-- A starved tick (R62, R71). -/
def starve (c : Chan) (seg : BitVec 16) (i : Nat) (s : State) : State :=
  post (.channel c) .starved (starvedDetail seg i) .ok (countStarved c (present c (s.chan c).held false s))

/-- Steps 2 to 8 over a pair of words, with the marker bit of step 8 (R44, R58). -/
def deliver (c : Chan) (seg : BitVec 16) (snap : Profile) (y0 y1 : Sample) (f : BitVec 32) (marker : Bool)
    (s : State) : State :=
  let ch := s.chan c
  let r := shape snap ch.active ch.cfg.lo.toInt ch.cfg.hi.toInt y0.toInt y1.toInt f
  present c (BitVec.ofInt 16 r.out) marker (noteClip c seg r s)

/-! ### Ticks -/

/-- The pair of step 1 over the sample window (R46, R47), none where a required word is not there. -/
def playPair (d : Desc) (x : Ctx) (f : Fetch) : Option (Sample × Sample) :=
  match windowWord f 0 with
  | none => none
  | some y0 =>
    if x.i + 1 < d.length ∨ x.passes ≠ 1 then (windowWord f 1).map fun y1 => (y0, y1)
    else some (y0, y0)

/-- An output tick over the play context (R44). The phase moves over as many words of the play order as its integer
part rises, across a wrap too (R60, R106); an entry end leaves the words to its completion (R26). -/
def tickPlay (c : Chan) (x : Ctx) (s : State) : State :=
  let d := s.segOf x.entry.seg
  match playPair d x (s.chan c).fetch with
  | none => starve c x.entry.seg x.i s
  | some (y0, y1) =>
    let s := deliver c x.entry.seg x.snap y0 y1 x.f (decide (x.marker ≠ 0)) s
    let x1 := advanceCtx d { x with marker := if x.marker = 0 then 0 else x.marker - 1 }
    let ch := s.chan c
    match x1.done with
    | some _ => s.setChan c { ch with ctx := some x1 }
    | none =>
      fetchIssue c (s.setChan c { ch with
        ctx := some x1, fetch := advanceWindow (phaseAdd x.f x.entry.incI x.entry.incF).1 ch.fetch })

/-- The phase integer part i is at or beyond the stream's end position (R73). -/
def streamEnded (x : Stream) (i : Nat) : Bool :=
  match x.endPos with
  | some e => decide (e ≤ i)
  | none => false

/-- The pair of step 1 over the intake (R71). -/
def streamPair (x : Stream) (intake : List StreamCell) : Option (Sample × Sample) :=
  match intake with
  | [] => none
  | head :: rest =>
    let y0 := payloadSample head.data x.i
    if streamEnded x (x.i + 1) then some (y0, y0)
    else if x.i + 1 < 16 then some (y0, payloadSample head.data (x.i + 1))
    else match rest with
      | [] => none
      | second :: _ => some (y0, payloadSample second.data 0)

/-- An output tick over the open stream (R71, R72, R73). -/
def tickStream (c : Chan) (x : Stream) (s : State) : State :=
  match streamPair x (s.chan c).intake with
  | none => starve c 0 x.i s
  | some (y0, y1) =>
    let s := deliver c 0 x.snap y0 y1 x.f false s
    let (n, f) := phaseAdd x.f x.incI x.incF
    let i := x.i + n
    if streamEnded x i then endStream c (x.endPos.getD 0) s
    else if 16 ≤ i then
      popIntake c ((s.chan c).intake.drop 1) (s.setChan c { s.chan c with
        stream := some { x with i := i - 16, f := f, endPos := x.endPos.map fun e => e - 16 } })
    else s.setChan c { s.chan c with stream := some { x with i := i, f := f } }

/-- One output tick of a channel, by its state (R44, R63, R64). An entry whose entry-done flag is set is completed
before it (R26). -/
def tick (c : Chan) (s : State) : State :=
  let s := completeEntry c s
  let ch := s.chan c
  match ch.st with
  | .running =>
    match ch.ctx, ch.stream with
    | some x, _ => tickPlay c x s
    | none, some x => tickStream c x s
    | none, none => s
  | .stopping =>
    match ch.ctx, ch.stream with
    | some x, _ => tickPlay c x s
    | none, some x => tickStream c x s
    | none, none => s
  | .halted => present c ch.cfg.park false s
  | _ =>
    match ch.cfg.idle with
    | .holdLast => present c ch.held false s
    | .park => present c ch.cfg.park false s

/-! ### The sample clock (R40, R176, R177) -/

/-- The divider counter returns to 0, and the stored divider governs the interval that begins (R177). -/
def restartDivider (c : Chan) (s : State) : State :=
  s.setChan c { s.chan c with divCount := 0, divNow := (s.chan c).cfg.divider.toNat }

/-- An output tick of a channel with its divider counter (R177). -/
def tickNow (c : Chan) (s : State) : State := tick c (restartDivider c s)

/-- A member of a started group goes from ARMED to RUNNING and delivers its first code (R40). -/
def startMember (c : Chan) (s : State) : State :=
  if (s.chan c).st = .armed then tickNow c (s.setSt c .running) else s

/-- The start tick of one start-pending group (R40). -/
def startGroup (g : Fin 4) (s : State) : State :=
  match s.groups.get g with
  | none => s
  | some x =>
    if x.pending then
      four.foldl (fun s c => if x.members.get c then startMember c s else s) (s.setGroup g none)
    else s

/-- The channels that a start tick now would start (R40). -/
def startingNow (s : State) (c : Chan) : Bool :=
  four.any fun g => match s.groups.get g with
    | some x => x.pending && x.members.get c
    | none => false

def State.setCkc (s : State) (x : Ckc) : State := { s with ckc := x }

/-- CLOCK_STATE, with the state entered (R176). -/
def postClock (x : ClockState) (s : State) : State := post .clock .clockState (BitVec.ofNat 32 x.num) .ok s

/-- The standby exit completes (R179): the banks leave SELF_REFRESH, the part becomes ACTIVE, OP_DONE is posted and
the arbiters resume. -/
def completeExit (tag : BitVec 16) (s : State) : State :=
  let wake : Bank → Bank := fun k => if k.ctrl = .selfRefresh then { k with ctrl := .closed, debt := 0 } else k
  let s := s.setStore { s.store with banks := s.store.banks.map wake }
  let s := { s with part := .active, slots := { s.slots with standbyExit := none } }
  let s := post .standbyExit .opDone (doneDetail tag 0) .ok s
  four.foldl (fun s b => decideBank b s) s

/-- The exit completes at the first moment the CKC is LOCKED (R179). -/
def exitIfLocked (s : State) : State :=
  match s.part, s.ckc.st, s.slots.standbyExit with
  | .exiting, .locked, some tag => completeExit tag s
  | _, _, _ => s

/-- The CKC becomes LOCKED (R176): every divider counter is set so that the first period after the lock is an
output tick of its channel (R177). Where the lock completes a standby exit, CLOCK_STATE is posted before
OP_DONE(STANDBY_EXIT): R172 allows either order, and this one is the model's choice (log 13). -/
def lockClock (s : State) : State :=
  let s := postClock .locked (s.setCkc { st := .locked, lockCount := 4096 })
  let set : Channel → Channel := fun ch =>
    { ch with divCount := ch.cfg.divider.toNat - 1, divNow := ch.cfg.divider.toNat }
  exitIfLocked { s with chans := s.chans.map set }

/-- A group waits for its start tick (R40). -/
def anyPending (s : State) : Bool :=
  four.any fun g => match s.groups.get g with
    | some x => x.pending
    | none => false

/-- One sample-clock period at a channel that does not start at it (R177). -/
def periodOf (c : Chan) (s : State) : State :=
  let ch := s.chan c
  if ch.divNow ≤ ch.divCount + 1 then tickNow c s
  else s.setChan c { ch with divCount := ch.divCount + 1 }

/-- One sample-clock period with the CKC LOCKED (R40, R177): it is the start tick of every start-pending group, and at
every channel that does not start the divider count rises, and its expiry is an output tick. The model takes the starting
members first, group by group, and then the other channels: the spec gives no order within a period, and this one is the
model's choice (log 13). -/
def lockedPeriod (s : State) : State :=
  let starts := startingNow s
  four.foldl (fun s c => if starts c then s else periodOf c s) (four.foldl (fun s g => startGroup g s) s)

/-- One qualified sample-clock period (R40, R176, R177): what a step does when no command waits (log 2). -/
def samplePeriod (s : State) : State :=
  if s.resetLow then s
  else match s.ckc.st with
    | .noClock => s
    | .locking =>
      if 4096 ≤ s.ckc.lockCount + 1 then lockClock s
      else s.setCkc { s.ckc with lockCount := s.ckc.lockCount + 1 }
    | .locked => lockedPeriod s

end Sys2Proof.Machine
end

