-- ==== Sys2Proof/Machine/Replies.lean ====
section
/-! DEFINITION. Answers of operations, replies and their data fields (R159, R160, R183), and the composing of a
reply in the Management Unit. -/

namespace Sys2Proof.Machine

/-- What an operation comes to at its take (R159): the state it leaves and, unless it waits for a later event, the
status and the data of its reply. -/
structure Answer where
  st : State
  reply : Option (Code × List Byte)
deriving DecidableEq, Repr

/-- A refusal: nothing changes and no data goes with the code (R158). -/
def refuse (code : Code) (s : State) : Answer := { st := s, reply := some (code, []) }

/-- Carried out, with data. -/
def okay (data : List Byte) (s : State) : Answer := { st := s, reply := some (.ok, data) }

/-- A long operation accepted (R161). -/
def accepted (s : State) : Answer := { st := s, reply := some (.accepted, []) }

/-- The reply waits on a later event: the MGU is EXECUTING (R159). -/
def waits (j : MguJob) (s : State) : Answer := { st := { s with mgu := .executing j }, reply := none }

/-! ### Data fields (R183) -/

/-- A field of one byte. -/
def f1 (n : Nat) : List Byte := bytesOf 1 n

def f2 (n : Nat) : List Byte := bytesOf 2 n

def f3 (n : Nat) : List Byte := bytesOf 3 n

def f4 (n : Nat) : List Byte := bytesOf 4 n

/-- A breakpoint, signed in 3 bytes. -/
def breakpointBytes (t : BitVec 18) : List Byte := f3 (t.signExtend 24).toNat

/-- An offset, signed in 4 bytes. -/
def offsetBytes (o : BitVec 17) : List Byte := f4 (o.signExtend 32).toNat

/-- Whether an optional field is given: the byte of a yes is 1 and of a no is 0, the model's choice (log 37). -/
def optByte (b : Bool) : List Byte := f1 (if b then 1 else 0)

/-! ### Handing the reply on (R160) -/

/-- A composed reply enters the reply queue if it holds fewer than 4, and the MGU becomes AVAILABLE; otherwise the
MGU holds it. -/
def handReply (r : Reply) (s : State) : State :=
  if s.ltx.replies.length < 4 then
    { s with ltx := { s.ltx with replies := s.ltx.replies ++ [r] }, mgu := .available }
  else { s with mgu := .replyHeld r }

/-- The reply of a taken operation, where it has one (R160). -/
def answerOp (tag : BitVec 16) (code : Byte) (a : Answer) : State :=
  match a.reply with
  | some (status, data) => handReply { op := code, tag := tag, status := status, data := data } a.st
  | none => a.st

end Sys2Proof.Machine
end

