-- ==== Sys2Proof/Machine/Segments.lean ====
section
/-! DEFINITION. The operations on the Segment Directory and the Profile Table (R6 to R10, R13 to R15). -/

namespace Sys2Proof.Machine

/-- The fields of SEG_DEFINE that check 4 of R7 tests. -/
def segFieldsOk (base length : BitVec 32) (loopGiven : BitVec 8) (loop : BitVec 32) : Bool :=
  decide (base.toNat % 16 = 0) && decide (2 ≤ length.toNat) && decide (length.toNat ≤ 4194304) &&
    decide (base.toNat + length.toNat ≤ 4194304) &&
    (decide (loopGiven = 0) || (decide (loopGiven = 1) && decide (loop.toNat < length.toNat)))

/-- SEG_DEFINE (R7). -/
def opSegDefine (index : BitVec 16) (base length : BitVec 32) (loopGiven : BitVec 8) (loop : BitVec 32)
    (s : State) : Answer :=
  if 512 ≤ index.toNat then refuse .badIndex s
  else
    let old := s.seg index.toNat
    if old.any fun d => decide (0 < d.use) then refuse .inUse s
    else if old.any fun d => d.locked then refuse .protected_ s
    else if segFieldsOk base length loopGiven loop then
      let d : Desc := { base := base.toNat, length := length.toNat,
                        loop := if loopGiven = 1 then some loop.toNat else none, locked := false, use := 0 }
      okay [] { s with segs := tablePut s.segs index.toNat d }
    else refuse .badArg s

/-- SEG_DELETE (R8). -/
def opSegDelete (index : BitVec 16) (s : State) : Answer :=
  if 512 ≤ index.toNat then refuse .badIndex s
  else match s.seg index.toNat with
    | none => refuse .notPresent s
    | some d =>
      if 0 < d.use then refuse .inUse s
      else if d.locked then refuse .protected_ s
      else okay [] { s with segs := tableErase s.segs index.toNat }

/-- SEG_LOCK (R9). -/
def opSegLock (index : BitVec 16) (value : BitVec 8) (s : State) : Answer :=
  if 512 ≤ index.toNat then refuse .badIndex s
  else match flagOf value with
    | none => refuse .badArg s
    | some v => match s.seg index.toNat with
      | none => refuse .notPresent s
      | some d => okay [] { s with segs := tablePut s.segs index.toNat { d with locked := v } }

/-- The data of SEG_READ (R10). The byte of a yes is 1 and of a no is 0, the model's choice (log 37). -/
def segData (index : Nat) (d : Option Desc) : List Byte :=
  match d with
  | none => f2 index ++ List.replicate 16 0
  | some d => f2 index ++ f1 1 ++ f4 d.base ++ f4 d.length ++ optByte d.loop.isSome ++ f4 d.loopStart ++
      [flagByte d.locked] ++ f1 d.use

/-- SEG_READ (R10). -/
def opSegRead (index : BitVec 16) (s : State) : Answer :=
  if 512 ≤ index.toNat then refuse .badIndex s
  else okay (segData index.toNat (s.seg index.toNat)) s

/-- The offset as stored: saturated to −65536 to 65535 (R13). -/
def offsetSaturated (o : BitVec 32) : BitVec 17 := BitVec.ofInt 17 (clampInt (-65536) 65535 o.toInt)

/-- A record as replies carry it, presence first; an absent record reads 0 (R13, R15). The byte of a yes is 1, the
model's choice (log 37). -/
def profileData (p : Option Profile) : List Byte :=
  match p with
  | none => List.replicate 9 0
  | some p => f1 1 ++ f1 p.interp.num ++ f2 p.gain.toNat ++ offsetBytes p.offset ++ f1 p.curve.num

/-- PROFILE_WRITE (R13). -/
def opProfileWrite (index interp : BitVec 8) (gain : BitVec 16) (offset : BitVec 32) (curve : BitVec 8)
    (s : State) : Answer :=
  if 64 ≤ index.toNat then refuse .badIndex s
  else match interpOf interp with
    | none => refuse .badArg s
    | some m => match curveUseOf curve with
      | none => refuse .badArg s
      | some u =>
        let p : Profile := { interp := m, gain := gain, offset := offsetSaturated offset, curve := u }
        okay (profileData (some p)) { s with profs := tablePut s.profs index.toNat p }

/-- PROFILE_CLEAR (R14). -/
def opProfileClear (index : BitVec 8) (s : State) : Answer :=
  if 64 ≤ index.toNat then refuse .badIndex s
  else match s.profile index with
    | none => refuse .notPresent s
    | some _ => okay [] { s with profs := tableErase s.profs index.toNat }

/-- PROFILE_READ (R15). -/
def opProfileRead (index : BitVec 8) (s : State) : Answer :=
  if 64 ≤ index.toNat then refuse .badIndex s
  else okay (f1 index.toNat ++ profileData (s.profile index)) s

end Sys2Proof.Machine
end

