-- ==== Sys2Proof/Machine/Loader.lean ====
section
/-! DEFINITION. The Load Writer (R108 to R112): load cells, the write burst, the close of a window. -/

namespace Sys2Proof.Machine

def State.setLdw (s : State) (x : Ldw) : State := { s with ldw := x }

/-- The Load Writer has a request waiting or granted (R99: at most one). -/
def loadBusy (s : State) : Bool := anyRequest (fun r => r.isLoadWrite || r.isCloseRead) s

/-- The write of the buffer head is requested at the next address, in class 3 (R110). -/
def requestHead (s : State) : State :=
  match s.ldw.window with
  | none => s
  | some w => if s.ldw.buffer.isEmpty then s else request (bankOf w.next) (.loadWrite w.next) s

/-- A write begins while nothing of the Load Writer is in progress (R110): a write of a new window waits behind the
close read (R111). -/
def startWrite (s : State) : State := if loadBusy s then s else requestHead s

/-- A load cell arrives (R110, R150, R151). -/
def loadArrives (data : Payload) (s : State) : State :=
  let s := countReceived .load s
  match s.ldw.window with
  | none => dropStrayLoad 0 s
  | some w =>
    if !w.accepting then dropStrayLoad 1 s
    else if w.length ≤ w.written + 16 * s.ldw.buffer.length then dropStrayLoad 2 s
    else if 4 ≤ s.ldw.buffer.length then dropOverrun .load s
    else startWrite (s.setLdw { s.ldw with buffer := s.ldw.buffer ++ [data] })

/-- The part of a close that LOAD_CLOSE and soft reset share (R108, R112): accepting is cleared and every cell
whose write has not been granted is discarded with its credit; with no write granted the window is CLOSED. -/
def closeWindow (s : State) : State :=
  match s.ldw.window with
  | none => s
  | some w =>
    if anyGranted Req.isLoadWrite s then
      let s := freeCredits .load (s.ldw.buffer.length - 1) s
      s.setLdw { window := some { w with accepting := false }, buffer := s.ldw.buffer.take 1 }
    else
      let s := four.foldl (fun s b => withdraw Req.isLoadWrite b s) s
      let s := freeCredits .load s.ldw.buffer.length s
      s.setLdw { window := none, buffer := [] }

/-- The window completes (R111): CLOSED, OP_DONE(LOAD), and the close read of the burst position just written. -/
def completeWindow (w : LoadWindow) (s : State) : State :=
  let s := s.setLdw { s.ldw with window := none }
  let s := post .load .opDone (doneDetail w.tag 0) .ok s
  request (bankOf w.next) (.closeRead w.next) s

/-- A window that no longer accepts closes at its write's completion, with the reply of a LOAD_CLOSE that waits for
it (R108, R112). -/
def closeAfterWrite (written : Nat) (s : State) : State :=
  let s := s.setLdw { s.ldw with window := none }
  match s.mgu with
  | .executing (.loadClose tag) =>
    handReply { op := 0x31, tag := tag, status := .ok, data := f4 written } s
  | _ => s

/-- What the Load Writer does at the completion of its write (R110, R111, R112). -/
def afterWrite (w : LoadWindow) (s : State) : State :=
  let written := w.written + 16
  if w.accepting then
    if w.length ≤ written then completeWindow w s
    else requestHead (s.setLdw { s.ldw with window := some { w with written := written, next := w.next + 16 } })
  else closeAfterWrite written s

/-- The write burst at bank b completes, of the burst position at `addr` in physical row `prow` (R110). -/
def loadWritten (b : BankNo) (prow addr : Nat) (s : State) : State :=
  match s.ldw.window, s.ldw.buffer with
  | some w, head :: rest =>
    let s := writeBurst b prow (colOf addr) head s
    let s := freeCredits .load 1 (s.setLdw { s.ldw with buffer := rest })
    endBurst b (afterWrite w s)
  | _, _ => endBurst b s

/-- The close read completes: its outcomes are recorded, its data goes nowhere, and a write of a new window that
waited behind it is requested (R111). -/
def closeReadDone (b : BankNo) (prow addr : Nat) (flips : Flips) (s : State) : State :=
  endBurst b (requestHead (readBurst .loadClose b prow addr flips s).1)

end Sys2Proof.Machine
end

