-- ==== Sys2Proof/Machine/Channels.lean ====
section
/-! DEFINITION. Cells and operations at the channels (R18 to R38, R65 to R68): play cells, stream cells, START,
STOP, FLUSH, SKIP, CHANNEL_SET, CHANNEL_READ. -/

namespace Sys2Proof.Machine

/-! ### Play cells (R20) -/

/-- The open load window overlaps the segment (R20 check 5). -/
def inLoad (s : State) (d : Desc) : Bool :=
  match s.ldw.window with
  | none => false
  | some w => overlaps w.base w.length d.base d.length

/-- A start index that is not below the segment's length (R20 check 6). -/
def badOffset (e : Entry) (d : Desc) : Bool :=
  match e.start with
  | none => false
  | some v => decide (d.length ≤ v.toNat)

/-- The arrival checks in their order: the code of the first that fails (R20). -/
def playCheck (s : State) (c : Chan) (e : Entry) : Option Code :=
  if (s.chan c).cfg.mode = .stream then some .wrongMode
  else if 512 ≤ e.seg.toNat ∨ 64 ≤ e.prof.toNat then some .badIndex
  else match s.seg e.seg.toNat with
    | none => some .notPresent
    | some d =>
      if s.store.state ≠ .ready then some .notReady
      else if inLoad s d then some .inLoad
      else if badOffset e d then some .badOffset
      else if e.passes ≠ 1 ∧ d.length - d.loopStart < 16 then some .badLoop
      else if e.incI = 0 ∧ e.incF = 0 then some .badRate
      else if (s.profile e.prof).isNone then some .profileAbsent
      else none

/-- An accepted entry joins the tail of the queue (R19, R20); a PRIMING channel with an empty context activates it
at once (R23), and otherwise the Fetch Unit may go on to it (R104). -/
def acceptEntry (c : Chan) (e : Entry) (s : State) : State :=
  let s := raiseUse e.seg s
  let s := s.setChan c { s.chan c with queue := (s.chan c).queue ++ [e] }
  let s := if (s.chan c).st = .priming ∧ (s.chan c).ctx = none then activate none c s else s
  armIfReady c (fetchIssue c s)

/-- A play cell arrives (R19, R20, R150). -/
def playArrives (c : Chan) (e : Entry) (s : State) : State :=
  let s := completeEntry c (countReceived (.play c) s)
  if 16 ≤ (s.chan c).queue.length then dropOverrun (.play c) s
  else match playCheck s c e with
    | some code => rejectPlay c code e.seg (freeCredits (.play c) 1 s)
    | none => acceptEntry c e s

/-! ### Stream cells (R66, R67) -/

/-- A stream cell arrives (R66, R67, R150). A PLAY channel whose entry has ended meets it completed (R26, log 14). -/
def streamArrives (c : Chan) (cell : StreamCell) (s : State) : State :=
  let s := completeEntry c (countReceived (.stream c) s)
  if 8 ≤ (s.chan c).intake.length then dropOverrun (.stream c) s
  else match (s.chan c).cfg.mode with
    | .play => rejectPlay c .wrongMode 0 (freeCredits (.stream c) 1 s)
    | .stream => joinIntake c cell s

/-! ### START and STOP (R32, R33) -/

/-- A channel that a START may name: IDLE or HALTED (R32). -/
def atRest (s : State) (c : Chan) : Bool := decide ((s.chan c).st = .idle ∨ (s.chan c).st = .halted)

/-- The lowest free group index (R32). -/
def freeGroup (s : State) : Option (Fin 4) := four.find? fun g => (s.groups.get g).isNone

/-- START once it has passed its argument checks (R32). With no group free, which no run meets, it is refused
(log 35). -/
def startMembers (m : Quad Bool) (mode : GroupMode) (s : State) : Answer :=
  if four.all fun c => !m.get c || atRest s c then
    match freeGroup s with
    | none => refuse .wrongState s
    | some g =>
      let s := s.setGroup g (some { members := m, mode := mode, complete := false, pending := false })
      okay (f1 g.val) (four.foldl (fun s c => if m.get c then primeMember c s else s) s)
  else refuse .wrongState s

/-- START (R32). -/
def opStart (members mode : BitVec 8) (s : State) : Answer :=
  match membersOf members with
  | none => refuse .badArg s
  | some m => match groupModeOf mode with
    | none => refuse .badArg s
    | some g => startMembers m g (completeMembers m s)

/-- STOP (R33): mode 0 IMMEDIATE, 1 AT_END. -/
def opStop (members mode : BitVec 8) (s : State) : Answer :=
  match membersOf members with
  | none => refuse .badArg s
  | some m => match flagOf mode with
    | none => refuse .badArg s
    | some atEnd =>
      okay [] (four.foldl (fun s c => if m.get c then stopChannel atEnd c s else s) (completeMembers m s))

/-! ### FLUSH and SKIP (R34, R35) -/

/-- FLUSH once its channel is known (R34, R75). -/
def flushOne (c : Chan) (s : State) : Answer :=
  if atRest s c then
    let n := match (s.chan c).cfg.mode with
      | .play => (s.chan c).queue.length
      | .stream => (s.chan c).intake.length
    okay (f1 n) (flushChannel c s)
  else refuse .wrongState s

/-- FLUSH (R34, R75). -/
def opFlush (channel : BitVec 8) (s : State) : Answer :=
  match indexOf channel with
  | none => refuse .badIndex s
  | some c => flushOne c (completeEntry c s)

/-- SKIP once its channel is known (R35). -/
def skipOne (c : Chan) (s : State) : Answer :=
  let ch := s.chan c
  if ch.cfg.mode = .play ∧ (ch.st = .running ∨ ch.st = .stopping) then
    okay [] (moveOn none c (releaseActive c s))
  else refuse .wrongState s

/-- SKIP (R35). -/
def opSkip (channel : BitVec 8) (s : State) : Answer :=
  match indexOf channel with
  | none => refuse .badIndex s
  | some c => skipOne c (completeEntry c s)

/-! ### CHANNEL_SET and CHANNEL_READ (R36, R38, R65, R76) -/

/-- A signed value clamped to a signed window (R36, R65). -/
def clampCode (lo hi v : BitVec 16) : BitVec 16 := BitVec.ofInt 16 (clampInt lo.toInt hi.toInt v.toInt)

/-- The code an IDLE or HALTED channel presents under its configuration (R63, R64, R65). -/
def restCode (ch : Channel) : BitVec 16 :=
  if ch.st = .halted then ch.cfg.park
  else match ch.cfg.idle with
    | .holdLast => ch.held
    | .park => ch.cfg.park

/-- The dividers a channel may have (R36). -/
def dividerOk (d : BitVec 8) : Bool := [1, 2, 4, 8, 16].contains d

/-- The configuration as CHANNEL_SET lays it out, without the channel byte (12). -/
def configData (k : ChanCfg) : List Byte :=
  f1 k.mode.num ++ f1 k.divider.toNat ++ f1 k.idle.num ++ f2 k.park.toNat ++ f2 k.lo.toNat ++ f2 k.hi.toNat ++
    f1 k.prof.toNat ++ f1 k.incI.toNat ++ f4 k.incF.toNat

/-- The configuration that CHANNEL_SET's fields make, its park code clamped into the window, where they are valid
(R36 check 4). -/
def configOf (mode divider idle : BitVec 8) (park lo hi : BitVec 16) (prof incI : BitVec 8) (incF : BitVec 32) :
    Option ChanCfg :=
  match modeOf mode, idlePolicyOf idle with
  | some m, some p =>
    if dividerOk divider ∧ lo.toInt ≤ hi.toInt ∧ prof.toNat ≤ 63 ∧ incI.toNat ≤ 15 ∧ ¬(incI = 0 ∧ incF = 0) then
      some { mode := m, divider := divider, idle := p, park := clampCode lo hi park, lo := lo, hi := hi,
             prof := prof, incI := incI.setWidth 4, incF := incF }
    else none
  | _, _ => none

/-- A new configuration is stored: the held code is clamped, and unless the CKC is NO_CLOCK the port presents the
state's code at once (R36, R65). -/
def storeConfig (c : Chan) (k : ChanCfg) (s : State) : State :=
  let ch := { s.chan c with cfg := k, held := clampCode k.lo k.hi (s.chan c).held }
  let s1 := s.setChan c ch
  if s.ckc.st = .noClock then s1 else present c (restCode ch) false s1

/-- CHANNEL_SET once its channel is known (R36 checks 2 to 4). A mode code that names no mode differs from the
present mode (log 29). -/
def setOne (c : Chan) (mode : BitVec 8) (k : Option ChanCfg) (s : State) : Answer :=
  let ch := s.chan c
  if !atRest s c then refuse .wrongState s
  else if mode.toNat ≠ ch.cfg.mode.num ∧ ¬(ch.queue = [] ∧ ch.intake = []) then refuse .wrongState s
  else match k with
    | none => refuse .badArg s
    | some k => okay (configData k) (storeConfig c k s)

/-- CHANNEL_SET (R36, R65). -/
def opChannelSet (channel mode divider idle : BitVec 8) (park lo hi : BitVec 16) (prof incI : BitVec 8)
    (incF : BitVec 32) (s : State) : Answer :=
  match indexOf channel with
  | none => refuse .badIndex s
  | some c => setOne c mode (configOf mode divider idle park lo hi prof incI incF) (completeEntry c s)

/-- The group byte of CHANNEL_READ: 0xFF with no group (12). DESIGN CHOICE: with a group, the bits that 12.2 does not name
(7 and 5:2) are sent as 0 (log 40). -/
def groupByte (s : State) (c : Chan) : Nat :=
  match groupOf s c with
  | none => 255
  | some g => match s.groups.get g with
    | none => 255
    | some x => g.val + 64 * x.mode.num

/-- The context's fields of CHANNEL_READ, all 0 where it is empty (R38, R76). -/
def contextData (ch : Channel) : List Byte :=
  match ch.ctx, ch.stream with
  | some x, _ => f2 x.entry.seg.toNat ++ f1 x.entry.prof.toNat ++ f2 x.passes.toNat ++ f3 x.i ++ f1 x.marker.toNat
  | none, some x => f2 0 ++ f1 x.prof.toNat ++ f2 0 ++ f3 x.i ++ f1 0
  | none, none => List.replicate 9 0

/-- The data of CHANNEL_READ (R38, R76, 12). -/
def channelData (s : State) (c : Chan) : List Byte :=
  let ch := s.chan c
  f1 ch.st.num ++ f1 (groupByte s c) ++ f1 ch.queue.length ++ f1 ch.intake.length ++ contextData ch ++
    configData ch.cfg

/-- CHANNEL_READ (R38, R76). -/
def opChannelRead (channel : BitVec 8) (s : State) : Answer :=
  match indexOf channel with
  | none => refuse .badIndex s
  | some c =>
    let s := completeEntry c s
    okay (channelData s c) s

end Sys2Proof.Machine
end

