-- ==== Sys2Proof/Machine/Curves.lean ====
section
/-! DEFINITION. The Curve Unit's operations (R80, R81, R83, R88) and the Calibration Region (R84, R85, R87, R89,
R90). -/

namespace Sys2Proof.Machine

/-! ### Breakpoints (R80, R88) -/

/-- A value as stored in a curve: saturated to −131072 to 131071 (R80). -/
def saturateBreakpoint (v : BitVec 24) : BitVec 18 := BitVec.ofInt 18 (clampInt (-131072) 131071 v.toInt)

/-- The value is outside the breakpoint range. -/
def breakpointClipped (v : BitVec 24) : Bool := decide ((saturateBreakpoint v).toInt ≠ v.toInt)

/-- Values put into a curve from an index on, in order. -/
def putBreakpoints (first : Nat) (vs : List (BitVec 24)) (t : Curve) : Curve :=
  (vs.zipIdx first).foldl (fun t p => t.set p.2 (saturateBreakpoint p.1)) t

/-- Value k, 0 to 7, of a CURVE_WRITE's 24 value bytes. -/
def writtenValue (values : BitVec 192) (k : Nat) : BitVec 24 := values.extractLsb' (168 - 24 * k) 24

/-! ### Calibration pages (R84, R85, R184) -/

def State.page (s : State) (p : Nat) : Page := s.cal.pages.getD p 0

def State.pageState (s : State) (p : Nat) : PageState := s.cal.states.getD p .blank

def State.setCal (s : State) (x : Cal) : State := { s with cal := x }

/-- Breakpoint j of channel n's image in a curve page: 3 bytes at 99 × n + 3 × j (R184). -/
def imageValue (p : Page) (n j : Nat) : BitVec 24 := p.extractLsb' (8 * (509 - 99 * n - 3 * j)) 24

/-- Channel n's image in a curve page (R184). -/
def imageValues (p : Page) (n : Nat) : List (BitVec 24) := (List.range 33).map fun j => imageValue p n j

/-- A page from its first 510 bytes and its check code (R85). -/
def makePage (body : List Byte) : Page := BitVec.ofNat 4096 (natOfBytes body * 65536 + (crc body).toNat)

/-- The image that CAL_PROGRAM forms from four curves (R89, R184). -/
def curvePage (curves : List Curve) : Page :=
  makePage ((curves.flatMap fun t => (List.range 33).flatMap fun j => breakpointBytes (t.getD j 0)) ++
    List.replicate 114 0)

/-- The four active curves, channel 0's first (R89). -/
def activeCurves (s : State) : List Curve := four.map fun c => (s.chan c).active

/-! ### The curve operations -/

/-- The check on first and count that CURVE_WRITE and CURVE_READ share (R80, R83). -/
def spanOk (first count : BitVec 8) : Bool :=
  decide (1 ≤ count.toNat) && decide (count.toNat ≤ 8) && decide (first.toNat + count.toNat ≤ 33)

/-- CURVE_WRITE (R80). -/
def opCurveWrite (channel first count : BitVec 8) (values : BitVec 192) (s : State) : Answer :=
  match indexOf channel with
  | none => refuse .badIndex s
  | some c =>
    if spanOk first count then
      let vs := (List.range count.toNat).map (writtenValue values)
      okay (f1 (vs.countP breakpointClipped))
        (s.setChan c { s.chan c with pendCurve := putBreakpoints first.toNat vs (s.chan c).pendCurve })
    else refuse .badArg s

/-- CURVE_COMMIT (R81): mode 0 NOW, 1 BOUNDARY; the result byte is 0 DONE, 1 DEFERRED. -/
def opCurveCommit (channel mode : BitVec 8) (s : State) : Answer :=
  match indexOf channel with
  | none => refuse .badIndex s
  | some c => match flagOf mode with
    | none => refuse .badArg s
    | some boundary =>
      if boundary && decide ((s.chan c).st = .running ∨ (s.chan c).st = .stopping) then
        okay (f1 1) (s.setChan c { s.chan c with commitReq := true })
      else okay (f1 0) (commitCurve c s)

/-- CURVE_READ (R83): selector 0 ACTIVE, 1 PENDING. -/
def opCurveRead (channel selector first count : BitVec 8) (s : State) : Answer :=
  match indexOf channel with
  | none => refuse .badIndex s
  | some c => match flagOf selector with
    | none => refuse .badArg s
    | some pending =>
      if spanOk first count then
        let t := if pending then (s.chan c).pendCurve else (s.chan c).active
        okay (flagByte (s.chan c).commitReq ::
          (List.range count.toNat).flatMap fun k => breakpointBytes (t.getD (first.toNat + k) 0)) s
      else refuse .badArg s

/-- CURVE_LOAD (R88). -/
def opCurveLoad (channel page : BitVec 8) (s : State) : Answer :=
  match indexOf channel with
  | none => refuse .badIndex s
  | some c =>
    if page.toNat < 1 ∨ 7 < page.toNat then refuse .badArg s
    else match s.pageState page.toNat with
      | .blank => refuse .blankPage s
      | .defective => refuse .calCorrupt s
      | .programmed =>
        if pageGood (s.page page.toNat) then
          let vs := imageValues (s.page page.toNat) c.val
          okay (f1 (vs.countP breakpointClipped))
            (s.setChan c { s.chan c with pendCurve := putBreakpoints 0 vs (s.chan c).pendCurve })
        else refuse .calCorrupt s

/-! ### The calibration operations -/

/-- The page of a CAL_PROGRAM in flight (R87, R89). -/
def pageInProgram (s : State) : Option Nat :=
  match s.cal.job with
  | some (.program p _) => some p
  | _ => none

/-- The check result of CAL_READ: GOOD 0, BAD 1, NOT_CHECKED 2 (R87, 12). -/
def checkResult (s : State) (p : Nat) : Nat :=
  if s.pageState p = .blank then 2 else if pageGood (s.page p) then 0 else 1

/-- CAL_READ (R87). A count of 0 or above 24, and an offset above 511, fail check 1 (R182). -/
def opCalRead (page : BitVec 8) (offset : BitVec 16) (count : BitVec 8) (s : State) : Answer :=
  if page.toNat ≤ 7 ∧ offset.toNat ≤ 511 ∧ 1 ≤ count.toNat ∧ count.toNat ≤ 24 ∧ offset.toNat + count.toNat ≤ 512 then
    if pageInProgram s = some page.toNat then refuse .busy s
    else okay (f1 (s.pageState page.toNat).num ++ f1 (checkResult s page.toNat) ++
      bytesFrom 512 (s.page page.toNat) offset.toNat count.toNat) s
  else refuse .badArg s

/-- CAL_PROGRAM (R89). -/
def opCalProgram (tag : BitVec 16) (page : BitVec 8) (s : State) : Answer :=
  if page.toNat < 2 ∨ 7 < page.toNat then refuse .badArg s
  else if s.slots.cal.isSome then refuse .busy s
  else if s.cal.lock then refuse .locked s
  else if s.pageState page.toNat ≠ .blank then refuse .alreadyProgrammed s
  else
    let s1 := s.setCal { s.cal with written := s.cal.written.set page.toNat true,
                                    job := some (.program page.toNat (curvePage (activeCurves s))) }
    accepted { s1 with slots := { s1.slots with cal := some tag } }

/-- CAL_LOCK (R90). -/
def opCalLock (tag : BitVec 16) (s : State) : Answer :=
  if s.slots.cal.isSome then refuse .busy s
  else if s.cal.lock then refuse .locked s
  else
    let s1 := s.setCal { s.cal with job := some .lock }
    accepted { s1 with slots := { s1.slots with cal := some tag } }

/-! ### The ends of the calibration programs (R89, R90) -/

/-- The CAL slot becomes IDLE and OP_DONE(CAL) is posted (R161). -/
def calDone (status : Code) (s : State) : State :=
  let tag := s.slots.cal.getD 0
  post .cal .opDone (doneDetail tag 0) status { s with slots := { s.slots with cal := none } }

/-- Programming and verify of a page end (R89): the bits of `faults` did not take; `markTook` tells whether the
verified mark reads as set where it was programmed. -/
def calProgramEnds (page : Nat) (image faults : Page) (markTook : Bool) (s : State) : State :=
  let good := decide (faults = 0) && markTook
  let s := s.setCal { s.cal with
    pages := s.cal.pages.set page (image ^^^ faults),
    verified := if good then s.cal.verified.set page true else s.cal.verified,
    states := s.cal.states.set page (if good then .programmed else .defective),
    job := none }
  calDone (if good then .ok else .programFailed) s

/-- The program of the lock mark ends (R90). -/
def calLockEnds (markTook : Bool) (s : State) : State :=
  let s := s.setCal { s.cal with lockMark := s.cal.lockMark || markTook, lock := s.cal.lock || markTook, job := none }
  calDone (if markTook then .ok else .programFailed) s

end Sys2Proof.Machine
end

