-- ==== Sys2Proof/Machine/StoreOps.lean ====
section
/-! DEFINITION. Operations on the Pattern Store (R109, R112, R114, R117, R128, R132 to R134, R139) and the bursts of
the management read, the retire copier and the init writer (R114, R135, R136, R139, R140). -/

namespace Sys2Proof.Machine

/-! ### The load window (R109, R112) -/

/-- A retire is in flight whose row overlaps [base, base + length) (R109 check 2). -/
def retireOver (s : State) (base length : Nat) : Bool :=
  match s.retire with
  | none => false
  | some r => overlaps base length (rowBase r.bank r.row) 256

/-- The arguments of LOAD_OPEN (R109 check 3). -/
def windowOk (base length : Nat) : Bool :=
  decide (base % 16 = 0) && decide (length % 16 = 0) && decide (16 ≤ length) && decide (length ≤ 4194304) &&
    decide (base + length ≤ 4194304)

/-- LOAD_OPEN (R109). -/
def opLoadOpen (tag : BitVec 16) (base length : BitVec 32) (s : State) : Answer :=
  if s.store.state ≠ .ready then refuse .notReady s
  else if s.ldw.window.isSome || retireOver s base.toNat length.toNat then refuse .busy s
  else if !windowOk base.toNat length.toNat then refuse .badArg s
  else if lockedOver s base.toNat length.toNat then refuse .protected_ s
  else if usedOver s base.toNat length.toNat then refuse .inUse s
  else
    let w : LoadWindow := { base := base.toNat, length := length.toNat, next := base.toNat, written := 0,
                            accepting := true, tag := tag }
    okay [] (s.setLdw { s.ldw with window := some w })

/-- LOAD_CLOSE (R112). -/
def opLoadClose (tag : BitVec 16) (s : State) : Answer :=
  match s.ldw.window with
  | none => refuse .notPresent s
  | some w =>
    let s1 := closeWindow s
    if s1.ldw.window.isSome then waits (.loadClose tag) s1 else okay (f4 w.written) s1

/-! ### STORE_READ (R114) -/

/-- The burst's words and groups that lie in [addr, addr + count) (R114): each word, and the outcome of each group
touched. -/
def readPart (addr count burst : Nat) (gs : List (BitVec 64 × Ecc)) : List Sample × List Ecc :=
  let inside := fun (a : Nat) => decide (addr ≤ a ∧ a < addr + count)
  (((burstWords gs).zipIdx burst).filterMap fun p => if inside p.2 then some p.1 else none,
   (gs.zipIdx).filterMap fun p =>
     if overlaps addr count (burst + 4 * p.2) 4 then some p.1.2 else none)

/-- The read result of a STORE_READ reply (12). -/
def readResult (count : Nat) (outs : List Ecc) : Nat :=
  81 * (count - 1) + (outs.zipIdx.map fun p => 3 ^ p.2 * eccNum p.1).sum

/-- The data of a STORE_READ reply (12). -/
def readData (addr count : Nat) (words : List Sample) (outs : List Ecc) : List Byte :=
  f4 (readResult count outs * 4194304 + addr) ++ words.flatMap fun w => f2 w.toNat

/-- STORE_READ (R114). -/
def opStoreRead (tag : BitVec 16) (address : BitVec 32) (count : BitVec 8) (s : State) : Answer :=
  if ¬(1 ≤ count.toNat ∧ count.toNat ≤ 12 ∧ address.toNat + count.toNat ≤ 4194304) then refuse .badArg s
  else if s.store.state ≠ .ready then refuse .notReady s
  else
    let a := burstAt address.toNat
    waits (.storeRead tag address.toNat count.toNat [] [] a) (request (bankOf a) (.mgmtRead a) s)

/-- What the Management Unit does with the words of a completed burst (R114): it requests the second burst position,
or composes the reply. -/
def storeReadGoesOn (tag : BitVec 16) (addr count : Nat) (words : List Sample) (outs : List Ecc) (burst : Nat)
    (s : State) : State :=
  if burst + 16 < addr + count then
    request (bankOf (burst + 16)) (.mgmtRead (burst + 16))
      { s with mgu := .executing (.storeRead tag addr count words outs (burst + 16)) }
  else handReply { op := 0x32, tag := tag, status := .ok, data := readData addr count words outs } s

/-- A management read burst completes at bank b (R114, R123). -/
def mgmtReadDone (b : BankNo) (prow addr : Nat) (flips : Flips) (s : State) : State :=
  let (s, gs) := readBurst .management b prow addr flips s
  match s.mgu with
  | .executing (.storeRead tag a n words outs burst) =>
    let (ws, os) := readPart a n burst gs
    endBurst b (storeReadGoesOn tag a n (words ++ ws) (outs ++ os) burst s)
  | _ => endBurst b s

/-! ### STORE_SET (R97, R117, R127) -/

/-- The entries at or above the threshold become flagged (R127). -/
def flagWeak (threshold : BitVec 8) (l : List Weak) : List Weak :=
  l.map fun w => if threshold.toNat ≤ w.count.toNat then { w with flagged := true } else w

/-- The first entry that a new threshold flags, in list order (R127). -/
def firstFlagged (threshold : BitVec 8) (l : List Weak) : Option Weak :=
  l.find? fun w => !w.flagged && decide (threshold.toNat ≤ w.count.toNat)

/-- The threshold as stored (R117). -/
def thresholdStored (t : BitVec 8) : BitVec 8 := if t = 0 then 1 else t

/-- The new settings with the flagging they cause (R117, R127). -/
def storeSettings (p : PagePolicy) (t : BitVec 8) (s : State) : State :=
  let first := firstFlagged t s.store.weak
  let s := s.setStore { s.store with policy := p, threshold := t, weak := flagWeak t s.store.weak }
  match first with
  | some w => post .store .eccThreshold (thresholdDetail w.bank w.row) .ok s
  | none => s

/-- STORE_SET (R117): a change to CLOSE_PAGE closes every bank that is OPEN and free (R97). -/
def opStoreSet (policy threshold : BitVec 8) (s : State) : Answer :=
  match pagePolicyOf policy with
  | none => refuse .badArg s
  | some p =>
    let t := thresholdStored threshold
    let s1 := storeSettings p t s
    let s2 := if p = .closePage ∧ s.store.policy = .openPage then four.foldl (fun s b => closeFree b s) s1 else s1
    okay (f1 p.num ++ f1 t.toNat) s2

/-! ### STORE_INIT (R139, R140) -/

/-- STORE_INIT (R139). Its slot is tested by the common refusals (R158). -/
def opStoreInit (tag : BitVec 16) (s : State) : Answer :=
  if s.segs.any fun p => decide (0 < p.2.use) then refuse .inUse s
  else if s.segs.any fun p => p.2.locked then refuse .protected_ s
  else if s.retire.isSome || s.ldw.window.isSome then refuse .busy s
  else
    let s1 := s.setStore { s.store with state := .initializing }
    let s2 := { s1 with slots := { s1.slots with storeInit := some tag }, init := some (Quad.fill 0) }
    accepted (four.foldl (fun s b => request b (.initWrite (rowBase b 0)) s) s2)

/-- How many burst positions a bank's walk has: 4096 rows of 16 (R139). -/
def walkLength : Nat := 65536

/-- The logical address of a position of a bank's walk (R139). -/
def walkAddr (b : BankNo) (n : Nat) : Nat := rowBase b (n / 16) + 16 * (n % 16)

/-- STORE_INIT completes (R140). -/
def completeInit (s : State) : State :=
  let tag := s.slots.storeInit.getD 0
  let s := s.setStore { s.store with state := .ready, suspect := false, weak := [] }
  post .storeInit .opDone (doneDetail tag 0) .ok
    { s with slots := { s.slots with storeInit := none }, init := none }

/-- The walk of bank b moves on: its next write is requested, or, when every bank has finished, the initialization
completes (R139, R140). -/
def initGoesOn (b : BankNo) (s : State) : State :=
  match s.init with
  | none => s
  | some q =>
    let n := q.get b + 1
    let q := q.set b n
    let s := { s with init := some q }
    if n < walkLength then request b (.initWrite (walkAddr b n)) s
    else if q.toList.all fun k => decide (walkLength ≤ k) then completeInit s
    else s

/-- An init write completes at bank b (R139). -/
def initWritten (b : BankNo) (prow addr : Nat) (s : State) : State :=
  endBurst b (initGoesOn b (writeBurst b prow (colOf addr) 0 s))

/-! ### RETIRE_ROW and the retire copier (R134 to R136) -/

/-- The lowest-numbered FREE spare of a bank (R134). -/
def freeSpare (s : State) (b : BankNo) : Option Nat := (s.store.spares.get b).findIdx? fun x => decide (x = .free)

/-- An open load window overlaps a logical row (R134 check 3). -/
def windowOver (s : State) (b : BankNo) (row : Nat) : Bool :=
  match s.ldw.window with
  | none => false
  | some w => overlaps w.base w.length (rowBase b row) 256

/-- The table's links with the one that RETIRE_ROW makes: a COPYING link appended, or a target given to the row's
ACTIVE link (R134). -/
def linkMade (links : List Link) (b : BankNo) (row spare : Nat) : List Link :=
  match linkOf links b row with
  | none => links ++ [{ bank := b, row := row, spare := spare, target := none, origin := .user, state := .copying }]
  | some _ => links.map fun l => if l.bank = b ∧ l.row = row then { l with target := some spare } else l

/-- The state of one spare row changed. -/
def setSpare (b : BankNo) (i : Nat) (x : SpareState) (s : State) : State :=
  s.setStore { s.store with spares := s.store.spares.set b ((s.store.spares.get b).set i x) }

def State.setRetire (s : State) (x : Option Retire) : State := { s with retire := x }

/-- The copier asks for the read of its burst position (R135 step 1). -/
def requestCopyRead (r : Retire) (s : State) : State :=
  request r.bank (.retireRead (rowBase r.bank r.row + 16 * r.pos)) s

/-- The copier asks for the write to the spare, named directly (R135 step 3). -/
def requestCopyWrite (r : Retire) (s : State) : State :=
  request r.bank (.retireWrite (4096 + r.spare) (16 * r.pos)) s

/-- RETIRE_ROW accepted onto a spare (R134). -/
def startRetire (tag : BitVec 16) (b : BankNo) (row spare : Nat) (s : State) : Answer :=
  let s := setSpare b spare .linked s
  let s := s.setStore { s.store with links := linkMade s.store.links b row spare }
  let r : Retire := { bank := b, row := row, spare := spare, pos := 0, words := 0, bad := 0 }
  accepted (requestCopyRead r { s with slots := { s.slots with retire := some tag }, retire := some r })

/-- RETIRE_ROW (R134). -/
def opRetireRow (tag : BitVec 16) (bank : BitVec 8) (row : BitVec 16) (s : State) : Answer :=
  match indexOf bank with
  | none => refuse .badArg s
  | some b =>
    if 4096 ≤ row.toNat then refuse .badArg s
    else if s.store.state ≠ .ready then refuse .notReady s
    else if s.slots.retire.isSome || windowOver s b row.toNat then refuse .busy s
    else if 32 ≤ s.store.links.length ∧ linkOf s.store.links b row.toNat = none then refuse .tableFull s
    else match freeSpare s b with
      | none => refuse .sparesExhausted s
      | some spare => startRetire tag b row.toNat spare s

/-- The 16 words of a burst as its groups were delivered. -/
def burstPayload (gs : List (BitVec 64 × Ecc)) : Payload :=
  gs.foldl (fun (acc : Payload) p => (acc <<< 64) ||| p.1.setWidth 256) 0

/-- A copier read completes at bank b (R135 steps 2 and 3). -/
def copyReadDone (b : BankNo) (prow addr : Nat) (flips : Flips) (s : State) : State :=
  let (s, gs) := readBurst .retireCopy b prow addr flips s
  match s.retire with
  | none => endBurst b s
  | some r =>
    let r := { r with words := burstPayload gs, bad := r.bad + badGroups gs }
    endBurst b (requestCopyWrite r (s.setRetire (some r)))

/-- The link of a completed retire (R136). -/
def linkCompleted (l : Link) : Link :=
  match l.target with
  | some t => { l with spare := t, target := none, origin := .user, state := .active }
  | none => { l with origin := .user, state := .active }

/-- The physical row that was the source of the copy (R134), with the old spare of a re-retire. -/
def retireSource (s : State) (r : Retire) : Nat × Option Nat :=
  match linkOf s.store.links r.bank r.row with
  | some l => if l.target.isSome then (4096 + l.spare, some l.spare) else (r.row, none)
  | none => (r.row, none)

/-- The old spare of a re-retire becomes DISCARDED (R136). -/
def discardSpare (b : BankNo) (old : Option Nat) (s : State) : State :=
  match old with
  | some i => setSpare b i .discarded s
  | none => s

/-- The retire completes (R136). -/
def completeRetire (r : Retire) (s : State) : State :=
  let src := retireSource s r
  let tag := s.slots.retire.getD 0
  let s := s.setStore { s.store with
    links := s.store.links.map fun l => if l.bank = r.bank ∧ l.row = r.row then linkCompleted l else l,
    weak := s.store.weak.filter fun w => !decide (w.bank = r.bank ∧ w.row = r.row) }
  let s := discardSpare r.bank src.2 s
  let s := { s with slots := { s.slots with retire := none }, retire := none }
  demandClose r.bank src.1 (post .retire .opDone (doneDetail tag r.bad) .ok s)

/-- A copier write completes at bank b (R135 step 4, R136). -/
def copyWriteDone (b : BankNo) (prow col : Nat) (s : State) : State :=
  match s.retire with
  | none => endBurst b s
  | some r =>
    let s := writeBurst b prow col r.words s
    if r.pos < 15 then
      let r := { r with pos := r.pos + 1 }
      endBurst b (requestCopyRead r (s.setRetire (some r)))
    else endBurst b (completeRetire r s)

/-! ### WEAK_READ, REMAP_READ, FAULT_READ (R128, R132, R133) -/

/-- An entry as WEAK_READ lays it out (12). DESIGN CHOICE: bits 8:0, which 12.2 does not name, are sent as 0 (log 40). -/
def weakBytes (w : Weak) : List Byte :=
  f4 (w.bank.val * 2 ^ 30 + w.row * 2 ^ 18 + w.count.toNat * 2 ^ 10 + (if w.flagged then 2 ^ 9 else 0))

/-- WEAK_READ (R133). -/
def opWeakRead (first : BitVec 8) (s : State) : Answer :=
  if 15 < first.toNat then refuse .badArg s
  else okay (f1 s.store.weak.length ++ f1 s.store.threshold.toNat ++
    ((s.store.weak.drop first.toNat).take 6).flatMap weakBytes) s

/-- A link as REMAP_READ lays it out (12): with no target its spare field is an absent field, which reads 0 (R183).
DESIGN CHOICE: bits 6:0, which 12.2 does not name, are sent as 0 (log 40). -/
def linkBytes (l : Link) : List Byte :=
  f4 (l.bank.val * 2 ^ 30 + l.row * 2 ^ 18 + l.spare * 2 ^ 14 +
    (match l.target with
      | some t => 2 ^ 13 + t * 2 ^ 9
      | none => 0) +
    (if l.origin = .user then 2 ^ 8 else 0) + (if l.state = .active then 2 ^ 7 else 0))

/-- The 16 spare states of a bank, 2 bits each, spare 0 lowest (12). -/
def spareBytes (l : List SpareState) : List Byte := f4 ((l.zipIdx.map fun p => p.1.num * 4 ^ p.2).sum)

/-- REMAP_READ (R132). -/
def opRemapRead (bank first : BitVec 8) (s : State) : Answer :=
  match indexOf bank with
  | none => refuse .badArg s
  | some b =>
    if 31 < first.toNat then refuse .badArg s
    else
      let links := s.store.links.filter fun l => decide (l.bank = b)
      okay (spareBytes (s.store.spares.get b) ++ f1 links.length ++ f1 s.store.links.length ++
        ((links.drop first.toNat).take 5).flatMap linkBytes) s

/-- The data of FAULT_READ (R128). -/
def faultData (f : FaultRec) : List Byte :=
  if f.present then
    f1 1 ++ f4 f.addr ++ f1 f.bank.val ++ f2 f.row ++ f1 f.req.num ++ f4 f.total.toNat
  else f1 0 ++ List.replicate 8 0 ++ f4 f.total.toNat

/-- FAULT_READ (R128). -/
def opFaultRead (s : State) : Answer := okay (faultData s.store.fault) s

end Sys2Proof.Machine
end

