-- ==== Sys2Proof/Machine/Management.lean ====
section
/-! DEFINITION. The Management Unit (R156 to R162, R164, R165, R167) with the operations of chapters 9 to 11: STATUS,
COUNTERS, SOFT_RESET, EVENTS_SET (R175), STANDBY_ENTER and STANDBY_EXIT (R178, R179). -/

namespace Sys2Proof.Machine

/-! ### Events and standby (R175, R178, R179) -/

/-- EVENTS_SET (R175). -/
def opEventsSet (enables : BitVec 16) (s : State) : Answer :=
  okay (f2 enables.toNat ++ f1 s.events.length) { s with mask := enables }

/-- What STANDBY_ENTER does at a bank (R178, R121): a waiting close read is withdrawn, an open row with no granted
work is closed, and a bank that is CLOSED enters SELF_REFRESH. Granted work is finished first. -/
def standbyBank (b : BankNo) (s : State) : State :=
  let s := withdraw Req.isCloseRead b s
  match (s.bank b).ctrl, (s.bank b).work with
  | .closed, none => reachClosed b s
  | _, _ => closeFree b s

/-- STANDBY_ENTER (R178). -/
def opStandbyEnter (s : State) : Answer :=
  if !(four.all fun c => atRest s c) then refuse .wrongState s
  else if s.slots.storeInit.isSome || s.slots.retire.isSome || s.slots.cal.isSome || s.ldw.window.isSome then
    refuse .busy s
  else okay [] (four.foldl (fun s b => standbyBank b s) { s with part := .standby })

/-- STANDBY_EXIT (R179). Its slot is tested by the common refusals (R158). -/
def opStandbyExit (tag : BitVec 16) (s : State) : Answer :=
  if s.part = .standby then
    accepted (exitIfLocked { s with part := .exiting, slots := { s.slots with standbyExit := some tag } })
  else refuse .wrongState s

/-! ### STATUS (R162, R163) -/

/-- A bit field: the value at its lowest bit. -/
def bitsAt (n at_ : Nat) : Nat := n * 2 ^ at_

def bitOf (b : Bool) (at_ : Nat) : Nat := if b then 2 ^ at_ else 0

/-- The load window's code in STATUS (12). -/
def windowNum (l : Ldw) : Nat :=
  match l.window with
  | none => 0
  | some w => if w.accepting then 1 else 2

/-- The packed STATUS reply (R162, 12). Byte 2 is said to hold the slots STORE_INIT, RETIRE, CAL and STANDBY_EXIT in bits
3:0: which bit is which slot is the model's choice, from STORE_INIT in bit 0 up to STANDBY_EXIT in bit 3 (log 39).
DESIGN CHOICE: the bits that 12.2 does not name (byte 1 bits 7:5, byte 2 bit 7, bytes 3 to 6 bits 3 and 7:5, byte 9
bits 7:1) are sent as 0 (log 40). -/
def statusData (s : State) : List Byte :=
  f1 (s.part.num + bitOf s.calFault 2 + bitsAt s.ckc.st.num 3 + bitsAt s.lrx.deln.num 5 + bitOf s.store.suspect 7) ++
  f1 (s.store.state.num + bitsAt s.store.policy.num 2 + bitsAt (windowNum s.ldw) 3) ++
  f1 (bitOf s.slots.storeInit.isSome 0 + bitOf s.slots.retire.isSome 1 + bitOf s.slots.cal.isSome 2 +
    bitOf s.slots.standbyExit.isSome 3 + bitsAt (s.groups.toList.countP Option.isSome) 4) ++
  (s.chans.toList.flatMap fun ch => f1 (ch.st.num + bitsAt ch.cfg.mode.num 4)) ++
  f2 ((List.range 8).map fun p => bitsAt (s.pageState p).num (2 * p)).sum ++
  f1 (bitOf s.cal.lock 0) ++ s.lrx.received.toList ++ f1 s.cmdQ.length ++ f1 s.ltx.replies.length

/-- STATUS (R162). -/
def opStatus (s : State) : Answer := okay (statusData s) s

/-! ### COUNTERS (R164, R165) -/

/-- The classes of the targets OVERRUN_LOW and OVERRUN_HIGH, in reply order (R164). -/
def overrunLow : List CreditClass := [.stream 0, .stream 1, .stream 2, .stream 3, .play 0]
def overrunHigh : List CreditClass := [.play 1, .play 2, .play 3, .load, .control]

/-- The counters of a channel in reply order (R164). -/
def channelCounters (k : ChanCounters) : List (BitVec 32) :=
  [k.completions, k.rejections, k.trigMisses, k.starved, k.clipped, k.uncorrectable]

/-- A target's counters in reply order (R164); targets 0 to 7. -/
def countersOf (s : State) (target : Nat) : List (BitVec 32) :=
  match target with
  | 0 => channelCounters (s.chan 0).cnt
  | 1 => channelCounters (s.chan 1).cnt
  | 2 => channelCounters (s.chan 2).cnt
  | 3 => channelCounters (s.chan 3).cnt
  | 4 => s.store.corrected :: s.store.banks.toList.map fun k => k.overruns
  | 5 => [s.lrx.crcDrops, s.lrx.delinLosses, s.lrx.undefKinds, s.lrx.strayLoads]
  | 6 => overrunLow.map s.lrx.overruns.get
  | _ => overrunHigh.map s.lrx.overruns.get

/-- The overrun counters of some classes set to 0. -/
def clearOverruns (ks : List CreditClass) (s : State) : State :=
  { s with lrx := { s.lrx with overruns := ks.foldl (fun p k => p.set k 0) s.lrx.overruns } }

/-- A target's counters set to 0 (R165). -/
def clearCounters (s : State) (target : Nat) : State :=
  match target with
  | 0 => s.setCnt 0 countersReset
  | 1 => s.setCnt 1 countersReset
  | 2 => s.setCnt 2 countersReset
  | 3 => s.setCnt 3 countersReset
  | 4 =>
    let zero : Bank → Bank := fun k => { k with overruns := 0 }
    s.setStore { s.store with corrected := 0, banks := s.store.banks.map zero }
  | 5 => { s with lrx := { s.lrx with crcDrops := 0, delinLosses := 0, undefKinds := 0, strayLoads := 0 } }
  | 6 => clearOverruns overrunLow s
  | _ => clearOverruns overrunHigh s

/-- COUNTERS (R165). At a channel whose entry-done flag is set it reads and clears before the completion is counted, the
model's choice of the two orders that R26 and R166 allow (log 14). -/
def opCounters (target clear : BitVec 8) (s : State) : Answer :=
  if 7 < target.toNat then refuse .badArg s
  else match flagOf clear with
    | none => refuse .badArg s
    | some z =>
      okay (f1 target.toNat ++ f1 clear.toNat ++ (countersOf s target.toNat).flatMap fun n => f4 n.toNat)
        (if z then clearCounters s target.toNat else s)

/-! ### SOFT_RESET (R167) -/

/-- Soft reset at one channel, as the completion actions of an ended entry have left it (R37, R45, R77, R107, R167). -/
def softResetChannel (c : Chan) (s : State) : State :=
  let s := flushIntake c (flushQueue c (emptyWindow c (releaseCtx c s)))
  s.setChan c { s.chan c with st := .idle, cnt := countersReset, clippedFlag := false }

/-- SOFT_RESET (R167). -/
def opSoftReset (s : State) : Answer :=
  if s.slots.storeInit.isSome || s.slots.retire.isSome || s.slots.cal.isSome then refuse .busy s
  else
    let s := four.foldl (fun s c => softResetChannel c s) (completeMembers (Quad.fill true) s)
    okay [] { closeWindow { s with groups := Quad.fill none } with events := [] }

/-! ### The take (R157, R158, R160) -/

/-- The operations admitted in STANDBY and EXITING (R158). -/
def admittedInStandby : Op → Bool
  | .status => true
  | .counters _ _ => true
  | .standbyExit => true
  | _ => false

/-- The long operations whose slot the common refusals test (R158). -/
def slotTaken (s : State) : Op → Bool
  | .storeInit => s.slots.storeInit.isSome
  | .standbyExit => s.slots.standbyExit.isSome
  | _ => false

/-- The common refusals in their order (R158). -/
def commonRefusal (op : Op) (s : State) : Option Code :=
  match op with
  | .unknown _ => some .badOp
  | op =>
    if s.part ≠ .active ∧ admittedInStandby op = false then some .standby
    else if slotTaken s op then some .busy
    else none

/-- An operation under its owning rule. -/
def ownRule (tag : BitVec 16) (op : Op) (s : State) : Answer :=
  match op with
  | .segDefine index base length given loop => opSegDefine index base length given loop s
  | .segDelete index => opSegDelete index s
  | .segLock index value => opSegLock index value s
  | .segRead index => opSegRead index s
  | .profileWrite index interp gain offset curve => opProfileWrite index interp gain offset curve s
  | .profileClear index => opProfileClear index s
  | .profileRead index => opProfileRead index s
  | .start members mode => opStart members mode s
  | .stop members mode => opStop members mode s
  | .flush channel => opFlush channel s
  | .skip channel => opSkip channel s
  | .channelSet channel mode divider idle park lo hi prof incI incF =>
    opChannelSet channel mode divider idle park lo hi prof incI incF s
  | .channelRead channel => opChannelRead channel s
  | .curveWrite channel first count values => opCurveWrite channel first count values s
  | .curveCommit channel mode => opCurveCommit channel mode s
  | .curveRead channel selector first count => opCurveRead channel selector first count s
  | .curveLoad channel page => opCurveLoad channel page s
  | .calRead page offset count => opCalRead page offset count s
  | .calProgram page => opCalProgram tag page s
  | .calLock => opCalLock tag s
  | .loadOpen base length => opLoadOpen tag base length s
  | .loadClose => opLoadClose tag s
  | .storeRead address count => opStoreRead tag address count s
  | .storeSet policy threshold => opStoreSet policy threshold s
  | .storeInit => opStoreInit tag s
  | .retireRow bank row => opRetireRow tag bank row s
  | .weakRead first => opWeakRead first s
  | .remapRead bank first => opRemapRead bank first s
  | .faultRead => opFaultRead s
  | .eventsSet enables => opEventsSet enables s
  | .standbyEnter => opStandbyEnter s
  | .standbyExit => opStandbyExit tag s
  | .status => opStatus s
  | .counters target clear => opCounters target clear s
  | .softReset => opSoftReset s
  | .unknown _ => refuse .badOp s

/-- An operation at its take: the common refusals, then its own rule (R157 steps 3 and 4). -/
def runOp (cell : CtlCell) (s : State) : Answer :=
  match commonRefusal cell.op s with
  | some code => refuse code s
  | none => ownRule cell.tag cell.op s

/-- The MGU may take a cell: it is AVAILABLE and start-up has ended (R157). -/
def mguFree (s : State) : Bool := decide (s.mgu = .available) && !s.startingUp

/-- The act of taking (R157), from the cells behind the head on. -/
def takeCell (cell : CtlCell) (rest : List CtlCell) (s : State) : State :=
  answerOp cell.tag (opCodeByte cell.op) (runOp cell (freeCredits .control 1 { s with cmdQ := rest }))

/-- The MGU takes the oldest cells while it may (R157); `n` bounds how many. -/
def drain : Nat → State → State
  | 0, s => s
  | n + 1, s =>
    if mguFree s then
      match s.cmdQ with
      | [] => s
      | cell :: rest => drain n (takeCell cell rest s)
    else s

/-- Everything the MGU takes in this act (R157). No cell joins the queue meanwhile. -/
def takeAll (s : State) : State := drain s.cmdQ.length s

/-- A control cell arrives (R150, R156, R157). -/
def controlArrives (cell : CtlCell) (s : State) : State :=
  let s := countReceived .control s
  if 8 ≤ s.cmdQ.length then dropOverrun .control s
  else takeAll { s with cmdQ := s.cmdQ ++ [cell] }

end Sys2Proof.Machine
end

