-- ==== Sys2Proof/Machine/CellLink.lean ====
section
/-! DEFINITION. The cell links: delineation (R143 to R147), dispatch by kind (R148), upstream cells (R153, R154,
R173, R183). -/

namespace Sys2Proof.Machine

def State.setLrx (s : State) (x : Lrx) : State := { s with lrx := x }

/-- LINK_STATE with the state entered (R144 to R147). -/
def postLink (d : Delin) (s : State) : State := post .link .linkState (BitVec.ofNat 32 d.num) .ok s

/-- The first good candidate in HUNT (R144). It is not taken. -/
def foundCandidate (s : State) : State :=
  postLink .presync (s.setLrx { s.lrx with deln := .presync, boundary := 0, goodRun := 0, silence := true })

/-- A good cell in PRESYNC (R145). It is not taken. -/
def presyncGood (s : State) : State :=
  let x : Lrx := { s.lrx with boundary := s.lrx.boundary + 304, goodRun := s.lrx.goodRun + 1, silence := true }
  if 4 ≤ x.goodRun then postLink .sync (s.setLrx { x with deln := .sync, badRun := 0 }) else s.setLrx x

/-- The state of the LRX back in HUNT, its search resuming at the bit after the first bit of the bad cell (R145,
R146). R145 and R147 set the good run to 0; that it is 0 after the loss of SYNC of R146 too is the model's choice
(log 21). -/
def backToHunt (x : Lrx) : Lrx :=
  { x with deln := .hunt, goodRun := 0, badRun := 0, silence := false, boundary := x.boundary + 1 }

/-- A bad cell in PRESYNC (R145). -/
def presyncBad (s : State) : State := postLink .hunt (s.setLrx (backToHunt s.lrx))

/-- A bad cell in SYNC (R146): CRC_ERROR with the bad run, and HUNT at the third in a row. -/
def syncBad (s : State) : State :=
  let n := s.lrx.badRun + 1
  let s1 := post .link .crcError (BitVec.ofNat 32 n) .ok
    (s.setLrx { s.lrx with crcDrops := satInc s.lrx.crcDrops, badRun := n })
  if 3 ≤ n then
    postLink .hunt (s1.setLrx { backToHunt s1.lrx with delinLosses := satInc s1.lrx.delinLosses })
  else s1.setLrx { s1.lrx with boundary := s1.lrx.boundary + 304, silence := true }

/-- The LRX's side of a good cell taken in SYNC (R146). -/
def syncGood (s : State) : State :=
  s.setLrx { s.lrx with badRun := 0, boundary := s.lrx.boundary + 304, silence := true }

/-- A good cell is dispatched by its kind (R148). -/
def dispatch (a : Arrival) (s : State) : State :=
  match a with
  | .stream c cell => streamArrives c cell s
  | .play c e => playArrives c e s
  | .load data => loadArrives data s
  | .control cell => controlArrives cell s
  | .trigger => takeTrigger true s
  | .fill => s
  | .undefinedKind => s.setLrx { s.lrx with undefKinds := satInc s.lrx.undefKinds }

/-- A good cell on the line, by the delineation state (R144 to R146, log 6). -/
def receiveGood (a : Arrival) (s : State) : State :=
  match s.lrx.deln with
  | .hunt => foundCandidate s
  | .presync => presyncGood s
  | .sync => dispatch a (syncGood s)

/-- A bad cell on the line, by the delineation state; in HUNT it is not counted (R144 to R146). -/
def receiveBad (s : State) : State :=
  match s.lrx.deln with
  | .hunt => s
  | .presync => presyncBad s
  | .sync => syncBad s

/-- 304 bits of the line: a candidate in HUNT, a cell at the boundary otherwise (R143). -/
def lineCell (cell : Cell) (s : State) : State :=
  if cellGood cell then receiveGood (cellArrival cell) s else receiveBad s

/-- The link silence interval expires (R147). -/
def silenceExpires (s : State) : State :=
  let back : Lrx := { s.lrx with deln := .hunt, goodRun := 0, badRun := 0, silence := false }
  match s.lrx.deln with
  | .hunt => s
  | .presync => postLink .hunt (s.setLrx back)
  | .sync => postLink .hunt (s.setLrx { back with delinLosses := satInc s.lrx.delinLosses })

/-! ### Upstream cells (R153, R154) -/

/-- The classes in the order of their indices (R148). -/
def classOf (n : Nat) : CreditClass :=
  match n with
  | 0 => .stream 0
  | 1 => .stream 1
  | 2 => .stream 2
  | 3 => .stream 3
  | 4 => .play 0
  | 5 => .play 1
  | 6 => .play 2
  | 7 => .play 3
  | 8 => .load
  | _ => .control

/-- An upstream cell: kind code, the credit report of the class at the rotation index, payload (12.2). -/
def upstreamCell (kind : Nat) (rot : Nat) (freed : Byte) (payload : List Byte) : Cell :=
  makeCell (f1 (16 * kind + rot) ++ [freed] ++ f2 0) payload

/-- The payload of a reply cell (12.2). -/
def replyPayload (r : Reply) : List Byte := [r.op] ++ f2 r.tag.toNat ++ f1 r.status.num ++ r.data

/-- The payload of an event cell (12.2). -/
def eventPayload (e : EvEntry) : List Byte :=
  f1 e.src.num ++ f1 e.kind.num ++ f2 e.count.toNat ++ f4 e.detail.toNat ++ f1 e.status.num

/-- A cell goes on the line with its credit report, and the rotation index advances (R154). -/
def sendCell (kind : Nat) (payload : List Byte) (s : State) : State :=
  let cell := upstreamCell kind s.ltx.rot (s.ltx.freed.get (classOf s.ltx.rot)) payload
  { s with ltx := { s.ltx with line := .cell cell, rot := if 9 ≤ s.ltx.rot then 0 else s.ltx.rot + 1 } }

/-- A held reply enters the reply queue as one leaves it, and the MGU takes its next cells (R157, R160). -/
def releaseHeld (s : State) : State :=
  match s.mgu with
  | .replyHeld r => takeAll (handReply r s)
  | _ => s

/-- An upstream cell starts: reply, else event once start-up has ended (R181), else fill (R153, R173). -/
def upstreamStarts (s : State) : State :=
  match s.ltx.replies, s.events with
  | r :: rest, _ =>
    releaseHeld (sendCell 1 (replyPayload r) { s with ltx := { s.ltx with replies := rest } })
  | [], e :: rest =>
    if s.startingUp then sendCell 15 [] s else sendCell 2 (eventPayload e) { s with events := rest }
  | [], [] => sendCell 15 [] s

end Sys2Proof.Machine
end

