-- ==== Sys2Proof/Machine/Banks.lean ====
section
/-! DEFINITION. Events at the banks (R95, R106, R119, R120) and at the sample clock (R31, R176). -/

namespace Sys2Proof.Machine

/-- A change of one bank's controller state. -/
def setCtrl (b : BankNo) (k : Ctrl) (s : State) : State := s.setBank b { s.bank b with ctrl := k }

/-- The activation in bank b completes, and the granted burst begins (R95). -/
def activationDone (b : BankNo) (s : State) : State :=
  match (s.bank b).ctrl with
  | .opening row => setCtrl b (.opened row) s
  | _ => s

/-- The close in bank b completes (R95): the granted work goes on, its activation consulting the remap table now
(R96), or the bank reaches CLOSED. -/
def closeDone (b : BankNo) (s : State) : State :=
  match (s.bank b).ctrl with
  | .closing => match (s.bank b).work with
    | some w => setCtrl b (beginClosed s b w.req) s
    | none => reachClosed b s
  | _ => s

/-- The refresh pointer's next row (R120). -/
def nextRow (p : Nat) : Nat := if 4111 ≤ p then 0 else p + 1

/-- The refresh in bank b completes (R120, R121). -/
def refreshDone (b : BankNo) (s : State) : State :=
  match (s.bank b).ctrl with
  | .refreshing =>
    let k := s.bank b
    reachClosed b (s.setBank b { k with ptr := nextRow k.ptr, debt := k.debt - 1 })
  | _ => s

/-- The refresh interval expires at bank b (R119), and a new refresh request reaches a free arbiter (R100). -/
def intervalAt (b : BankNo) (s : State) : State :=
  let k := s.bank b
  if k.ctrl = .selfRefresh then s
  else if k.debt < 8 then decideBank b (s.setBank b { k with debt := k.debt + 1 })
  else
    let s := s.setBank b { k with overruns := satInc k.overruns }
    post .store .refreshOverrun (BitVec.ofNat 32 b.val) .ok (s.setStore { s.store with suspect := true })

/-- A fetch burst completes at bank b (R106, R107, R129): its words are placed, the channel may become ARMED (R30),
further bursts are issued (R105), and the bank becomes free. DESIGN CHOICE: at a channel whose entry has ended, its
completion actions still to come (R26), the burst is placed and counted first, and they follow (log 14). -/
def fetchDone (c : Chan) (b : BankNo) (prow addr : Nat) (flips : Flips) (s : State) : State :=
  endBurst b (fetchIssue c (armIfReady c (fetchReturn c b prow addr flips s)))

/-- The sample clock is lost (R31, R176). The entries that have ended are completed first (R26). -/
def clockLost (s : State) : State :=
  match s.ckc.st with
  | .noClock => s
  | _ => four.foldl (fun s c => haltChannel c s)
      (postClock .noClock ((completeMembers (Quad.fill true) s).setCkc { st := .noClock, lockCount := 0 }))

/-- A first qualified period in NO_CLOCK (R176). -/
def clockStarts (s : State) : State :=
  match s.ckc.st with
  | .noClock => postClock .locking (s.setCkc { st := .locking, lockCount := 1 })
  | _ => s

/-- The lock count reaches 4096 in LOCKING (R176). DESIGN CHOICE: CLOCK_LOCK says that it does, whatever count the periods
taken so far have made: the count is then 4096 (log 2). -/
def clockLocks (s : State) : State :=
  match s.ckc.st with
  | .locking => lockClock s
  | _ => s

/-- The start tick of every start-pending group, with the CKC LOCKED (R40): it is a whole sample-clock period, so the
divider counts of the other channels go on with it (R177). -/
def startTickNow (s : State) : State :=
  match s.ckc.st with
  | .locked => if anyPending s then lockedPeriod s else s
  | _ => s

/-- The divider count of channel c expires, with the CKC LOCKED (R177). -/
def outputTickNow (c : Chan) (s : State) : State :=
  match s.ckc.st with
  | .locked => tickNow c s
  | _ => s

end Sys2Proof.Machine
end

