-- ==== Sys2Proof/Machine/Reset.lean ====
section
/-! DEFINITION. Power-on, pin reset and start-up (R79, R84, R86, R91, R98, R121, R131, R137, R140, R155, R180,
R181, R184). -/

namespace Sys2Proof.Machine

/-! ### What an interrupted calibration program leaves (R91) -/

/-- The bytes of a page that a program had reached hold its image but for the bits that did not take; the others are
still erased (R87, R91). -/
def reachedPage (reached : Nat) (image faults : Page) : Page :=
  let mask : Page := BitVec.allOnes 4096 >>> (8 * min reached 512)
  ((image ^^^ faults) &&& ~~~mask) ||| mask

/-- The one-time storage after an interruption (R91). -/
def interruptCal (reached : Nat) (faults : Page) (lockTook : Bool) (k : Cal) : Cal :=
  match k.job with
  | none => k
  | some (.program p image) => { k with pages := k.pages.set p (reachedPage reached image faults), job := none }
  | some .lock => { k with lockMark := k.lockMark || lockTook, job := none }

/-! ### Start-up steps 1 to 3 (R181) -/

/-- A page's state by its marks (R84). -/
def stateOfMarks (written verified : Bool) : PageState :=
  match written, verified with
  | false, false => .blank
  | true, true => .programmed
  | _, _ => .defective

/-- Step 1: the page states and the region lock derived from the marks (R84, R86). -/
def deriveStates (k : Cal) : Cal :=
  { k with states := List.zipWith stateOfMarks k.written k.verified, lock := k.lockMark }

/-- The page can be used: PROGRAMMED with a good check code (R181). -/
def pageUsable (k : Cal) (p : Nat) : Bool :=
  decide (k.states.getD p .blank = .programmed) && pageGood (k.pages.getD p 0)

/-- One link that page 0 lists, taken or skipped (R181 step 2): bank, logical row and spare in 4 bytes (R184). -/
def takeLink (x : Store) (bank row spare : Nat) : Store :=
  if h : bank < 4 then
    let b : BankNo := ⟨bank, h⟩
    if 4095 < row ∨ 15 < spare ∨ (x.links.any fun l => decide (l.bank = b ∧ (l.row = row ∨ l.spare = spare))) then x
    else { x with
      links := x.links ++ [{ bank := b, row := row, spare := spare, target := none, origin := .factory,
                             state := .active }],
      spares := x.spares.set b ((x.spares.get b).set spare .linked) }
  else x

/-- Step 2 at power-on: the factory links of page 0, a count above 8 read as 8 (R181, R184). -/
def loadLinks (p : Page) (x : Store) : Store :=
  let count := min (byteAt 512 p 16).toNat 8
  (List.range count).foldl (fun x k =>
    takeLink x (byteAt 512 p (17 + 4 * k)).toNat (natOfBytes (bytesFrom 512 p (18 + 4 * k) 2))
      (byteAt 512 p (20 + 4 * k)).toNat) x

/-- A channel's curve image as a curve (R184). -/
def imageCurve (p : Page) (n : Nat) : Curve := (imageValues p n).map saturateBreakpoint

/-- Step 3: the curves that start-up gives a channel (R79, R181). -/
def startCurve (k : Cal) (n : Nat) : Curve := if pageUsable k 1 then imageCurve (k.pages.getD 1 0) n else identityCurve

/-- The four channels at their reset values with their curves (R37, R45, R77, R79, R102). -/
def resetChannels (k : Cal) : Quad Channel :=
  ⟨channelReset (startCurve k 0), channelReset (startCurve k 1), channelReset (startCurve k 2),
   channelReset (startCurve k 3)⟩

/-! ### The resets -/

/-- Power-on (R180): every block at its power-on value, over the calibration storage as it stands; the commands
that wait and the numbering of free values are the model's own (log 28). For a retire that a loss of power cuts short,
R137 speaks of the link, the spare and the weak entry as they were, R125, R131 and R180 of power-on values: the model
takes the power-on values (log 28). Start-up begins, and with it the first upstream cell (R155). -/
def powerOnState (s : State) (k : Cal) : State :=
  let k := deriveStates k
  upstreamStarts { State.reset with
    pending := s.pending, free := s.free, cal := k, calFault := !pageUsable k 1, chans := resetChannels k,
    store := if pageUsable k 0 then loadLinks (k.pages.getD 0 0) storeReset else storeReset }

/-- POWER_ON, with what the loss of power left of a program in flight (R91, R180). -/
def powerOn (reached : Nat) (faults : Page) (lockTook : Bool) (s : State) : State :=
  powerOnState s (interruptCal reached faults lockTook s.cal)

/-- The words of a write that is granted when RESETN falls become undefined (R94, R98, log 24). -/
def cutWrite (b : BankNo) (s : State) : State :=
  match (s.bank b).work with
  | none => s
  | some w =>
    let prow := match (s.bank b).ctrl with
      | .opened row => row
      | .opening row => row
      | _ => reqRow s b w.req
    match w.req with
    | .loadWrite a => undefineBurst b prow (colOf a) s
    | .initWrite a => undefineBurst b prow (colOf a) s
    | .retireWrite _ col => undefineBurst b prow col s
    | _ => s

/-- A bank at the start of a pin reset (R95, R98, R121): SELF_REFRESH, its work abandoned, its requests removed. -/
def holdBank (k : Bank) : Bank := { k with ctrl := .selfRefresh, work := none, waiting := [], debt := 0, rr := 3 }

/-- A retire in flight is abandoned (R131, R137). -/
def abandonRetire (s : State) : State :=
  match s.retire with
  | none => s
  | some r =>
    let s1 := setSpare r.bank r.spare .free s
    let s2 := s1.setStore { s1.store with
      links := (s1.store.links.filter fun l => decide (l.state ≠ .copying)).map fun l => { l with target := none } }
    s2.setRetire none

/-- An initialization in flight is abandoned (R94, R140). -/
def abandonInit (s : State) : State :=
  if s.store.state = .initializing then { (s.setStore { s.store with state := .uninitialized }) with init := none }
  else { s with init := none }

/-- A port while RESETN is low (R45, R180). -/
def holdPort (ch : Channel) : Channel := { ch with port := { code := 0x8000, marker := false } }

/-- RESETN falls (R180): what the part shows and abandons at once. The other blocks take their pin-reset values when
RESETN returns high. -/
def pinResetFalls (reached : Nat) (faults : Page) (lockTook : Bool) (s : State) : State :=
  let s := four.foldl (fun s b => cutWrite b s) s
  let s := abandonInit (abandonRetire s)
  let s := s.setStore { s.store with banks := s.store.banks.map holdBank }
  { s with
    resetLow := true, cal := interruptCal reached faults lockTook s.cal, chans := s.chans.map holdPort,
    ltx := { s.ltx with line := .low }, mgu := .available, slots := ⟨none, none, none, none⟩ }

/-- A bank at the end of a pin reset (R98, R118). -/
def wakeBank (k : Bank) : Bank := { k with ctrl := .closed, work := none, waiting := [], debt := 0, rr := 3 }

/-- The store after a pin reset (R94, R98, R117, R118, R124, R125, R128, R131). DESIGN CHOICE: the threshold is 8 again and
the weak row list is kept as it is, so an unflagged entry whose count is 8 or more by then stays unflagged, and nothing is
posted for it, until its row's next outcome (R126) or a STORE_SET (R127) (log 41). -/
def pinResetStore (x : Store) : Store :=
  { x with policy := .openPage, threshold := 8, banks := x.banks.map wakeBank }

/-- RESETN returns high: every block takes its pin-reset value and start-up begins (R180, R181), and with it the first
upstream cell (R155). -/
def pinResetRises (s : State) : State :=
  let k := deriveStates s.cal
  upstreamStarts { State.reset with
    pending := s.pending, free := s.free, cal := k, calFault := !pageUsable k 1, chans := resetChannels k,
    store := pinResetStore s.store }

/-- Start-up ends: the MGU may take cells (R157, R181 step 4). -/
def startUpEnds (s : State) : State := if s.startingUp then takeAll { s with startingUp := false } else s

end Sys2Proof.Machine
end

