-- ==== Sys2Proof/Machine/Events.lean ====
section
/-! DEFINITION. The meanings of the commands that are events at the part: one definition for each row POWER_ON to
CAL_LOCK_COMPLETE. A command whose event cannot arise in the state changes nothing (log 3); while RESETN is low only
POWER_ON and PIN_RESET_RELEASE do anything (R180, log 4). -/

namespace Sys2Proof.Machine

/-- An event that the part takes only while RESETN is high (log 4). -/
def powered (f : State → State) (s : State) : Host.Outcome State Fault Refusal :=
  .next (if s.resetLow then s else f s)

/-- The burst of some kind that is in progress: its bank, its physical row and what it asks for (R95, R100). -/
def burstOfKind (p : Req → Bool) (s : State) : Option (BankNo × Nat × Req) :=
  match burstBank p s with
  | none => none
  | some b => (burstOf s b).map fun x => (b, x.2, x.1)

/-- FETCH_BURST_COMPLETE where a fetch burst is in progress at the bank (R106). -/
def fetchEnds (b : BankNo) (flips : Flips) (s : State) : State :=
  match burstOf s b with
  | some (.fetch c addr, row) => fetchDone c b row addr flips s
  | _ => s

/-- LOAD_WRITE_COMPLETE where a load write is in progress; a waiting LOAD_CLOSE may free the MGU (R110, R112,
R157). What the MGU then takes comes after the bank has decided, the model's choice of R100's two orders (log 12). -/
def loadWriteEnds (s : State) : State :=
  match burstOfKind Req.isLoadWrite s with
  | some (b, row, .loadWrite addr) => takeAll (loadWritten b row addr s)
  | _ => s

/-- LOAD_CLOSE_READ_COMPLETE where a close read is in progress (R111). -/
def closeReadEnds (flips : Flips) (s : State) : State :=
  match burstOfKind Req.isCloseRead s with
  | some (b, row, .closeRead addr) => closeReadDone b row addr flips s
  | _ => s

/-- STORE_READ_BURST_COMPLETE where a management read is in progress; its reply may free the MGU (R114, R157). What the
MGU then takes comes after the bank has decided, the model's choice of R100's two orders (log 12). -/
def mgmtReadEnds (flips : Flips) (s : State) : State :=
  match burstOfKind Req.isMgmtRead s with
  | some (b, row, .mgmtRead addr) => takeAll (mgmtReadDone b row addr flips s)
  | _ => s

/-- RETIRE_COPY_READ_COMPLETE where a copier read is in progress (R135). -/
def copyReadEnds (flips : Flips) (s : State) : State :=
  match burstOfKind Req.isRetireRead s with
  | some (b, row, .retireRead addr) => copyReadDone b row addr flips s
  | _ => s

/-- RETIRE_COPY_WRITE_COMPLETE where a copier write is in progress (R135, R136). -/
def copyWriteEnds (s : State) : State :=
  match burstOfKind Req.isRetireWrite s with
  | some (b, row, .retireWrite _ col) => copyWriteDone b row col s
  | _ => s

/-- INIT_WRITE_COMPLETE where an init write is in progress at the bank (R139). -/
def initWriteEnds (b : BankNo) (s : State) : State :=
  match burstOf s b with
  | some (.initWrite addr, row) => initWritten b row addr s
  | _ => s

/-- CAL_PROGRAM_COMPLETE where a page is in program (R89). -/
def calProgramEnd (faults : Page) (markTook : Bool) (s : State) : State :=
  match s.cal.job with
  | some (.program page image) => calProgramEnds page image faults markTook s
  | _ => s

/-- CAL_LOCK_COMPLETE where the lock mark is in program (R90). -/
def calLockEnd (markTook : Bool) (s : State) : State :=
  match s.cal.job with
  | some .lock => calLockEnds markTook s
  | _ => s

/-- POWER_ON (R180). -/
def execPowerOn (reached : Nat) (faults : Page) (lockTook : Bool) (s : State) : Host.Outcome State Fault Refusal :=
  .next (powerOn reached faults lockTook s)

/-- PIN_RESET_ASSERT (R180). -/
def execPinResetAssert (reached : Nat) (faults : Page) (lockTook : Bool) (s : State) :
    Host.Outcome State Fault Refusal :=
  powered (fun s => pinResetFalls reached faults lockTook s) s

/-- PIN_RESET_RELEASE (R180). -/
def execPinResetRelease (s : State) : Host.Outcome State Fault Refusal :=
  .next (if s.resetLow then pinResetRises s else s)

/-- START_UP_END (R181). -/
def execStartUpEnd (s : State) : Host.Outcome State Fault Refusal :=
  powered (fun s => startUpEnds s) s

/-- TRIG_RISING_EDGE (R42). -/
def execTrigRisingEdge (s : State) : Host.Outcome State Fault Refusal :=
  powered (fun s => takeTrigger false s) s

/-- TRIGGER_CELL (R42). -/
def execTriggerCell (s : State) : Host.Outcome State Fault Refusal :=
  powered (fun s => receiveGood .trigger s) s

/-- CLOCK_LOCK (R176). -/
def execClockLock (s : State) : Host.Outcome State Fault Refusal :=
  powered (fun s => clockLocks s) s

/-- CLOCK_QUALIFIED_START (R176). -/
def execClockQualifiedStart (s : State) : Host.Outcome State Fault Refusal :=
  powered (fun s => clockStarts s) s

/-- CLOCK_LOSS (R176). -/
def execClockLoss (s : State) : Host.Outcome State Fault Refusal :=
  powered (fun s => clockLost s) s

/-- OUTPUT_TICK (R44). -/
def execOutputTick (c : Chan) (s : State) : Host.Outcome State Fault Refusal :=
  powered (fun s => outputTickNow c s) s

/-- START_TICK (R40). -/
def execStartTick (s : State) : Host.Outcome State Fault Refusal :=
  powered (fun s => startTickNow s) s

/-- ENTRY_COMPLETION (R26). -/
def execEntryCompletion (c : Chan) (s : State) : Host.Outcome State Fault Refusal :=
  powered (fun s => completeEntry c s) s

/-- HUNT_GOOD_CANDIDATE (R144). -/
def execHuntGoodCandidate (cell : Cell) (s : State) : Host.Outcome State Fault Refusal :=
  powered (fun s => lineCell cell s) s

/-- PRESYNC_CELL (R145). -/
def execPresyncCell (cell : Cell) (s : State) : Host.Outcome State Fault Refusal :=
  powered (fun s => lineCell cell s) s

/-- BAD_CELL (R146). -/
def execBadCell (cell : Cell) (s : State) : Host.Outcome State Fault Refusal :=
  powered (fun s => lineCell cell s) s

/-- SILENCE_TIMER_EXPIRY (R147). -/
def execSilenceTimerExpiry (s : State) : Host.Outcome State Fault Refusal :=
  powered (fun s => silenceExpires s) s

/-- PLAY_CELL (R20). -/
def execPlayCell (c : Chan) (payload : Payload) (s : State) : Host.Outcome State Fault Refusal :=
  powered (fun s => receiveGood (.play c (payloadEntry payload)) s) s

/-- STREAM_CELL (R66). -/
def execStreamCell (c : Chan) (start : Bool) (last : Bool) (payload : Payload) (s : State) :
    Host.Outcome State Fault Refusal :=
  powered (fun s => receiveGood (.stream c { start := start, last := last, data := payload }) s) s

/-- LOAD_CELL (R110). -/
def execLoadCell (payload : Payload) (s : State) : Host.Outcome State Fault Refusal :=
  powered (fun s => receiveGood (.load payload) s) s

/-- CONTROL_CELL (R156). -/
def execControlCell (payload : Payload) (s : State) : Host.Outcome State Fault Refusal :=
  powered (fun s => receiveGood (.control (payloadControl payload)) s) s

/-- FILL_CELL (R148). -/
def execFillCell (s : State) : Host.Outcome State Fault Refusal :=
  powered (fun s => receiveGood .fill s) s

/-- UNDEFINED_KIND_CELL (R148). -/
def execUndefinedKindCell (kind : BitVec 4) (s : State) : Host.Outcome State Fault Refusal :=
  powered (fun s => if knownKinds.contains kind.toNat then s else receiveGood .undefinedKind s) s

/-- UPSTREAM_CELL_START (R153). -/
def execUpstreamCellStart (s : State) : Host.Outcome State Fault Refusal :=
  powered (fun s => upstreamStarts s) s

/-- REFRESH_INTERVAL_EXPIRY (R119). -/
def execRefreshIntervalExpiry (s : State) : Host.Outcome State Fault Refusal :=
  powered (fun s => four.foldl (fun s b => intervalAt b s) s) s

/-- ACTIVATION_COMPLETE (R95). -/
def execActivationComplete (b : BankNo) (s : State) : Host.Outcome State Fault Refusal :=
  powered (fun s => activationDone b s) s

/-- CLOSE_COMPLETE (R95). -/
def execCloseComplete (b : BankNo) (s : State) : Host.Outcome State Fault Refusal :=
  powered (fun s => closeDone b s) s

/-- REFRESH_COMPLETE (R120). -/
def execRefreshComplete (b : BankNo) (s : State) : Host.Outcome State Fault Refusal :=
  powered (fun s => refreshDone b s) s

/-- FETCH_BURST_COMPLETE (R106). -/
def execFetchBurstComplete (b : BankNo) (flips : Flips) (s : State) : Host.Outcome State Fault Refusal :=
  powered (fun s => fetchEnds b flips s) s

/-- LOAD_WRITE_COMPLETE (R110). -/
def execLoadWriteComplete (s : State) : Host.Outcome State Fault Refusal :=
  powered (fun s => loadWriteEnds s) s

/-- LOAD_CLOSE_READ_COMPLETE (R111). -/
def execLoadCloseReadComplete (flips : Flips) (s : State) : Host.Outcome State Fault Refusal :=
  powered (fun s => closeReadEnds flips s) s

/-- STORE_READ_BURST_COMPLETE (R114). -/
def execStoreReadBurstComplete (flips : Flips) (s : State) : Host.Outcome State Fault Refusal :=
  powered (fun s => mgmtReadEnds flips s) s

/-- RETIRE_COPY_READ_COMPLETE (R135). -/
def execRetireCopyReadComplete (flips : Flips) (s : State) : Host.Outcome State Fault Refusal :=
  powered (fun s => copyReadEnds flips s) s

/-- RETIRE_COPY_WRITE_COMPLETE (R135). -/
def execRetireCopyWriteComplete (s : State) : Host.Outcome State Fault Refusal :=
  powered (fun s => copyWriteEnds s) s

/-- INIT_WRITE_COMPLETE (R139). -/
def execInitWriteComplete (b : BankNo) (s : State) : Host.Outcome State Fault Refusal :=
  powered (fun s => initWriteEnds b s) s

/-- CAL_PROGRAM_COMPLETE (R89). -/
def execCalProgramComplete (faults : Page) (markTook : Bool) (s : State) : Host.Outcome State Fault Refusal :=
  powered (fun s => calProgramEnd faults markTook s) s

/-- CAL_LOCK_COMPLETE (R90). -/
def execCalLockComplete (markTook : Bool) (s : State) : Host.Outcome State Fault Refusal :=
  powered (fun s => calLockEnd markTook s) s

end Sys2Proof.Machine
end

