-- ==== Sys2Proof/Machine/Operations.lean ====
section
/-! DEFINITION. The meanings of the operations' rows: each is the arrival of a good control cell that carries the
operation (R148, R156, R157, log 5). What the operation does is in its own definition `op…`. -/

namespace Sys2Proof.Machine

/-- A good control cell with this tag and operation on the downstream link. -/
def controlCellWith (tag : BitVec 16) (op : Op) (s : State) : State := receiveGood (.control { tag := tag, op := op }) s

/-- SEG_DEFINE (R7). -/
def execSegDefine (tag : BitVec 16) (index : BitVec 16) (base : BitVec 32) (length : BitVec 32)
    (loopGiven : BitVec 8) (loop : BitVec 32) (s : State) :
    Host.Outcome State Fault Refusal :=
  powered (fun s => controlCellWith tag (.segDefine index base length loopGiven loop) s) s

/-- SEG_DELETE (R8). -/
def execSegDelete (tag : BitVec 16) (index : BitVec 16) (s : State) :
    Host.Outcome State Fault Refusal :=
  powered (fun s => controlCellWith tag (.segDelete index) s) s

/-- SEG_LOCK (R9). -/
def execSegLock (tag : BitVec 16) (index : BitVec 16) (value : BitVec 8) (s : State) :
    Host.Outcome State Fault Refusal :=
  powered (fun s => controlCellWith tag (.segLock index value) s) s

/-- SEG_READ (R10). -/
def execSegRead (tag : BitVec 16) (index : BitVec 16) (s : State) :
    Host.Outcome State Fault Refusal :=
  powered (fun s => controlCellWith tag (.segRead index) s) s

/-- PROFILE_WRITE (R13). -/
def execProfileWrite (tag : BitVec 16) (index : BitVec 8) (interp : BitVec 8) (gain : BitVec 16)
    (offset : BitVec 32) (curve : BitVec 8) (s : State) :
    Host.Outcome State Fault Refusal :=
  powered (fun s => controlCellWith tag (.profileWrite index interp gain offset curve) s) s

/-- PROFILE_CLEAR (R14). -/
def execProfileClear (tag : BitVec 16) (index : BitVec 8) (s : State) :
    Host.Outcome State Fault Refusal :=
  powered (fun s => controlCellWith tag (.profileClear index) s) s

/-- PROFILE_READ (R15). -/
def execProfileRead (tag : BitVec 16) (index : BitVec 8) (s : State) :
    Host.Outcome State Fault Refusal :=
  powered (fun s => controlCellWith tag (.profileRead index) s) s

/-- START (R32). -/
def execStart (tag : BitVec 16) (members : BitVec 8) (mode : BitVec 8) (s : State) :
    Host.Outcome State Fault Refusal :=
  powered (fun s => controlCellWith tag (.start members mode) s) s

/-- STOP (R33). -/
def execStop (tag : BitVec 16) (members : BitVec 8) (mode : BitVec 8) (s : State) :
    Host.Outcome State Fault Refusal :=
  powered (fun s => controlCellWith tag (.stop members mode) s) s

/-- FLUSH (R34). -/
def execFlush (tag : BitVec 16) (channel : BitVec 8) (s : State) :
    Host.Outcome State Fault Refusal :=
  powered (fun s => controlCellWith tag (.flush channel) s) s

/-- SKIP (R35). -/
def execSkip (tag : BitVec 16) (channel : BitVec 8) (s : State) :
    Host.Outcome State Fault Refusal :=
  powered (fun s => controlCellWith tag (.skip channel) s) s

/-- CHANNEL_SET (R36). -/
def execChannelSet (tag : BitVec 16) (channel : BitVec 8) (mode : BitVec 8) (divider : BitVec 8)
    (idle : BitVec 8) (park : BitVec 16) (lo : BitVec 16) (hi : BitVec 16) (prof : BitVec 8) (incI : BitVec 8) (incF : BitVec 32) (s : State) :
    Host.Outcome State Fault Refusal :=
  powered (fun s => controlCellWith tag (.channelSet channel mode divider idle park lo hi prof incI incF) s) s

/-- CHANNEL_READ (R38). -/
def execChannelRead (tag : BitVec 16) (channel : BitVec 8) (s : State) :
    Host.Outcome State Fault Refusal :=
  powered (fun s => controlCellWith tag (.channelRead channel) s) s

/-- CURVE_WRITE (R80). -/
def execCurveWrite (tag : BitVec 16) (channel : BitVec 8) (first : BitVec 8) (count : BitVec 8)
    (values : BitVec 192) (s : State) :
    Host.Outcome State Fault Refusal :=
  powered (fun s => controlCellWith tag (.curveWrite channel first count values) s) s

/-- CURVE_COMMIT (R81). -/
def execCurveCommit (tag : BitVec 16) (channel : BitVec 8) (mode : BitVec 8) (s : State) :
    Host.Outcome State Fault Refusal :=
  powered (fun s => controlCellWith tag (.curveCommit channel mode) s) s

/-- CURVE_READ (R83). -/
def execCurveRead (tag : BitVec 16) (channel : BitVec 8) (selector : BitVec 8) (first : BitVec 8)
    (count : BitVec 8) (s : State) :
    Host.Outcome State Fault Refusal :=
  powered (fun s => controlCellWith tag (.curveRead channel selector first count) s) s

/-- CURVE_LOAD (R88). -/
def execCurveLoad (tag : BitVec 16) (channel : BitVec 8) (page : BitVec 8) (s : State) :
    Host.Outcome State Fault Refusal :=
  powered (fun s => controlCellWith tag (.curveLoad channel page) s) s

/-- CAL_READ (R87). -/
def execCalRead (tag : BitVec 16) (page : BitVec 8) (offset : BitVec 16) (count : BitVec 8) (s : State) :
    Host.Outcome State Fault Refusal :=
  powered (fun s => controlCellWith tag (.calRead page offset count) s) s

/-- CAL_PROGRAM (R89). -/
def execCalProgram (tag : BitVec 16) (page : BitVec 8) (s : State) :
    Host.Outcome State Fault Refusal :=
  powered (fun s => controlCellWith tag (.calProgram page) s) s

/-- CAL_LOCK (R90). -/
def execCalLock (tag : BitVec 16) (s : State) :
    Host.Outcome State Fault Refusal :=
  powered (fun s => controlCellWith tag .calLock s) s

/-- LOAD_OPEN (R109). -/
def execLoadOpen (tag : BitVec 16) (base : BitVec 32) (length : BitVec 32) (s : State) :
    Host.Outcome State Fault Refusal :=
  powered (fun s => controlCellWith tag (.loadOpen base length) s) s

/-- LOAD_CLOSE (R112). -/
def execLoadClose (tag : BitVec 16) (s : State) :
    Host.Outcome State Fault Refusal :=
  powered (fun s => controlCellWith tag .loadClose s) s

/-- STORE_READ (R114). -/
def execStoreRead (tag : BitVec 16) (address : BitVec 32) (count : BitVec 8) (s : State) :
    Host.Outcome State Fault Refusal :=
  powered (fun s => controlCellWith tag (.storeRead address count) s) s

/-- STORE_SET (R117). -/
def execStoreSet (tag : BitVec 16) (policy : BitVec 8) (threshold : BitVec 8) (s : State) :
    Host.Outcome State Fault Refusal :=
  powered (fun s => controlCellWith tag (.storeSet policy threshold) s) s

/-- STORE_INIT (R139). -/
def execStoreInit (tag : BitVec 16) (s : State) :
    Host.Outcome State Fault Refusal :=
  powered (fun s => controlCellWith tag .storeInit s) s

/-- RETIRE_ROW (R134). -/
def execRetireRow (tag : BitVec 16) (bank : BitVec 8) (row : BitVec 16) (s : State) :
    Host.Outcome State Fault Refusal :=
  powered (fun s => controlCellWith tag (.retireRow bank row) s) s

/-- WEAK_READ (R133). -/
def execWeakRead (tag : BitVec 16) (first : BitVec 8) (s : State) :
    Host.Outcome State Fault Refusal :=
  powered (fun s => controlCellWith tag (.weakRead first) s) s

/-- REMAP_READ (R132). -/
def execRemapRead (tag : BitVec 16) (bank : BitVec 8) (first : BitVec 8) (s : State) :
    Host.Outcome State Fault Refusal :=
  powered (fun s => controlCellWith tag (.remapRead bank first) s) s

/-- FAULT_READ (R128). -/
def execFaultRead (tag : BitVec 16) (s : State) :
    Host.Outcome State Fault Refusal :=
  powered (fun s => controlCellWith tag .faultRead s) s

/-- EVENTS_SET (R175). -/
def execEventsSet (tag : BitVec 16) (enables : BitVec 16) (s : State) :
    Host.Outcome State Fault Refusal :=
  powered (fun s => controlCellWith tag (.eventsSet enables) s) s

/-- STANDBY_ENTER (R178). -/
def execStandbyEnter (tag : BitVec 16) (s : State) :
    Host.Outcome State Fault Refusal :=
  powered (fun s => controlCellWith tag .standbyEnter s) s

/-- STANDBY_EXIT (R179). -/
def execStandbyExit (tag : BitVec 16) (s : State) :
    Host.Outcome State Fault Refusal :=
  powered (fun s => controlCellWith tag .standbyExit s) s

/-- STATUS (R162). -/
def execStatus (tag : BitVec 16) (s : State) :
    Host.Outcome State Fault Refusal :=
  powered (fun s => controlCellWith tag .status s) s

/-- COUNTERS (R165). -/
def execCounters (tag : BitVec 16) (target : BitVec 8) (clear : BitVec 8) (s : State) :
    Host.Outcome State Fault Refusal :=
  powered (fun s => controlCellWith tag (.counters target clear) s) s

/-- SOFT_RESET (R167). -/
def execSoftReset (tag : BitVec 16) (s : State) :
    Host.Outcome State Fault Refusal :=
  powered (fun s => controlCellWith tag .softReset s) s

/-- UNDEFINED_OPERATION (R158). A code that the operation table names is not this command (log 3). -/
def execUndefinedOperation (tag : BitVec 16) (code : BitVec 8) (s : State) :
    Host.Outcome State Fault Refusal :=
  powered (fun s => if knownCodes.contains code.toNat then s else controlCellWith tag (.unknown code) s) s

end Sys2Proof.Machine
end

