-- ==== Sys2Proof/Machine/Dispatch.lean ====
section
/-! DEFINITION. The meaning of every command, one arm each. -/

namespace Sys2Proof.Machine

def exec (i : Instr) (s : State) : Host.Outcome State Fault Refusal :=
  match i with
  | .powerOn reached faults lockTook => Sys2Proof.Machine.execPowerOn reached faults lockTook s
  | .pinResetAssert reached faults lockTook => Sys2Proof.Machine.execPinResetAssert reached faults lockTook s
  | .pinResetRelease => Sys2Proof.Machine.execPinResetRelease s
  | .startUpEnd => Sys2Proof.Machine.execStartUpEnd s
  | .trigRisingEdge => Sys2Proof.Machine.execTrigRisingEdge s
  | .triggerCell => Sys2Proof.Machine.execTriggerCell s
  | .clockLock => Sys2Proof.Machine.execClockLock s
  | .clockQualifiedStart => Sys2Proof.Machine.execClockQualifiedStart s
  | .clockLoss => Sys2Proof.Machine.execClockLoss s
  | .outputTick c => Sys2Proof.Machine.execOutputTick c s
  | .startTick => Sys2Proof.Machine.execStartTick s
  | .entryCompletion c => Sys2Proof.Machine.execEntryCompletion c s
  | .huntGoodCandidate cell => Sys2Proof.Machine.execHuntGoodCandidate cell s
  | .presyncCell cell => Sys2Proof.Machine.execPresyncCell cell s
  | .badCell cell => Sys2Proof.Machine.execBadCell cell s
  | .silenceTimerExpiry => Sys2Proof.Machine.execSilenceTimerExpiry s
  | .playCell c payload => Sys2Proof.Machine.execPlayCell c payload s
  | .streamCell c start last payload => Sys2Proof.Machine.execStreamCell c start last payload s
  | .loadCell payload => Sys2Proof.Machine.execLoadCell payload s
  | .controlCell payload => Sys2Proof.Machine.execControlCell payload s
  | .fillCell => Sys2Proof.Machine.execFillCell s
  | .undefinedKindCell kind => Sys2Proof.Machine.execUndefinedKindCell kind s
  | .upstreamCellStart => Sys2Proof.Machine.execUpstreamCellStart s
  | .refreshIntervalExpiry => Sys2Proof.Machine.execRefreshIntervalExpiry s
  | .activationComplete b => Sys2Proof.Machine.execActivationComplete b s
  | .closeComplete b => Sys2Proof.Machine.execCloseComplete b s
  | .refreshComplete b => Sys2Proof.Machine.execRefreshComplete b s
  | .fetchBurstComplete b flips => Sys2Proof.Machine.execFetchBurstComplete b flips s
  | .loadWriteComplete => Sys2Proof.Machine.execLoadWriteComplete s
  | .loadCloseReadComplete flips => Sys2Proof.Machine.execLoadCloseReadComplete flips s
  | .storeReadBurstComplete flips => Sys2Proof.Machine.execStoreReadBurstComplete flips s
  | .retireCopyReadComplete flips => Sys2Proof.Machine.execRetireCopyReadComplete flips s
  | .retireCopyWriteComplete => Sys2Proof.Machine.execRetireCopyWriteComplete s
  | .initWriteComplete b => Sys2Proof.Machine.execInitWriteComplete b s
  | .calProgramComplete faults markTook => Sys2Proof.Machine.execCalProgramComplete faults markTook s
  | .calLockComplete markTook => Sys2Proof.Machine.execCalLockComplete markTook s
  | .segDefine tag index base length loopGiven loop => Sys2Proof.Machine.execSegDefine tag index base length loopGiven loop s
  | .segDelete tag index => Sys2Proof.Machine.execSegDelete tag index s
  | .segLock tag index value => Sys2Proof.Machine.execSegLock tag index value s
  | .segRead tag index => Sys2Proof.Machine.execSegRead tag index s
  | .profileWrite tag index interp gain offset curve => Sys2Proof.Machine.execProfileWrite tag index interp gain offset curve s
  | .profileClear tag index => Sys2Proof.Machine.execProfileClear tag index s
  | .profileRead tag index => Sys2Proof.Machine.execProfileRead tag index s
  | .start tag members mode => Sys2Proof.Machine.execStart tag members mode s
  | .stop tag members mode => Sys2Proof.Machine.execStop tag members mode s
  | .flush tag channel => Sys2Proof.Machine.execFlush tag channel s
  | .skip tag channel => Sys2Proof.Machine.execSkip tag channel s
  | .channelSet tag channel mode divider idle park lo hi prof incI incF => Sys2Proof.Machine.execChannelSet tag channel mode divider idle park lo hi prof incI incF s
  | .channelRead tag channel => Sys2Proof.Machine.execChannelRead tag channel s
  | .curveWrite tag channel first count values => Sys2Proof.Machine.execCurveWrite tag channel first count values s
  | .curveCommit tag channel mode => Sys2Proof.Machine.execCurveCommit tag channel mode s
  | .curveRead tag channel selector first count => Sys2Proof.Machine.execCurveRead tag channel selector first count s
  | .curveLoad tag channel page => Sys2Proof.Machine.execCurveLoad tag channel page s
  | .calRead tag page offset count => Sys2Proof.Machine.execCalRead tag page offset count s
  | .calProgram tag page => Sys2Proof.Machine.execCalProgram tag page s
  | .calLock tag => Sys2Proof.Machine.execCalLock tag s
  | .loadOpen tag base length => Sys2Proof.Machine.execLoadOpen tag base length s
  | .loadClose tag => Sys2Proof.Machine.execLoadClose tag s
  | .storeRead tag address count => Sys2Proof.Machine.execStoreRead tag address count s
  | .storeSet tag policy threshold => Sys2Proof.Machine.execStoreSet tag policy threshold s
  | .storeInit tag => Sys2Proof.Machine.execStoreInit tag s
  | .retireRow tag bank row => Sys2Proof.Machine.execRetireRow tag bank row s
  | .weakRead tag first => Sys2Proof.Machine.execWeakRead tag first s
  | .remapRead tag bank first => Sys2Proof.Machine.execRemapRead tag bank first s
  | .faultRead tag => Sys2Proof.Machine.execFaultRead tag s
  | .eventsSet tag enables => Sys2Proof.Machine.execEventsSet tag enables s
  | .standbyEnter tag => Sys2Proof.Machine.execStandbyEnter tag s
  | .standbyExit tag => Sys2Proof.Machine.execStandbyExit tag s
  | .status tag => Sys2Proof.Machine.execStatus tag s
  | .counters tag target clear => Sys2Proof.Machine.execCounters tag target clear s
  | .softReset tag => Sys2Proof.Machine.execSoftReset tag s
  | .undefinedOperation tag code => Sys2Proof.Machine.execUndefinedOperation tag code s

end Sys2Proof.Machine
end

