-- ==== Sys2Proof/Safety.lean ====
section
/-! DEFINITION. The terms in which statements about the part are made: when an operation is taken at its arrival and
what that alone does, and the laws of the device that every command keeps. -/

namespace Sys2Proof.Machine

/-! ### Operations taken at their arrival (R148, R156, R157, R160) -/

/-- A control cell that arrives now is taken at once, and its reply, if it is composed at the take, enters the reply
queue: RESETN is high, start-up has ended, the LRX is in SYNC, the MGU is AVAILABLE with an empty command queue, and
the reply queue has room. -/
abbrev Ready (s : State) : Prop :=
  s.resetLow = false ∧ s.startingUp = false ∧ s.lrx.deln = .sync ∧ s.mgu = .available ∧ s.cmdQ = [] ∧
    s.ltx.replies.length < 4

/-- As `Ready`, with the part ACTIVE, so that no operation is refused STANDBY (R158). -/
abbrev ReadyActive (s : State) : Prop := Ready s ∧ s.part = .active

/-- What the arrival and the take of a control cell alone do: the boundary moves on, the bad run ends, the CONTROL
received and freed counts each rise by 1 (R146, R148, R149, R157). -/
def controlTaken (s : State) : State := freeCredits .control 1 (countReceived .control (syncGood s))

/-- The state with a reply at the tail of the reply queue (R160). -/
def replied (tag : BitVec 16) (code : Byte) (status : Code) (data : List Byte) (s : State) : State :=
  { s with ltx := { s.ltx with
      replies := s.ltx.replies ++ [{ op := code, tag := tag, status := status, data := data }] } }

/-- The command's outcome is the state t with this reply, of the operation code `code`. -/
abbrev Answers (i : Instr) (s : State) (tag : BitVec 16) (code : Byte) (status : Code) (data : List Byte)
    (t : State) : Prop :=
  exec i s = .next (replied tag code status data t)

/-- The command is refused: beside its take nothing changes, and the reply carries the code and no data (R158). -/
abbrev Refuses (i : Instr) (s : State) (tag : BitVec 16) (code : Byte) (status : Code) : Prop :=
  Answers i s tag code status [] (controlTaken s)

/-- A good cell of some kind is taken and dispatched: RESETN is high and the LRX is in SYNC (R146, R148). -/
abbrev Listening (s : State) : Prop := s.resetLow = false ∧ s.lrx.deln = .sync

/-! ### Check codes (R143, R85) -/

/-- The remainder so far with the next bit brought down, and the divisor x^16 + x^15 + x^2 + 1 taken away where it goes
in. -/
def divisionStep (r : BitVec 16) (bit : Bool) : BitVec 16 :=
  let d := r.concat bit
  (if d.msb then d ^^^ 0b11000000000000101 else d).setWidth 16

/-- The check code of a run of bits: the remainder, from an initial value of 0, of the bits followed by 16 zeros in the
division by x^16 + x^15 + x^2 + 1 over the two-element field, with no final inversion (R143, R85). -/
def checkCode (bits : List Bool) : BitVec 16 := (bits ++ List.replicate 16 false).foldl divisionStep 0

/-- The bits of v above its last 16, the most significant first: what the check code of a cell or a page covers. -/
def coveredBits {w : Nat} (v : BitVec w) : List Bool := (List.range (w - 16)).map fun k => v.getLsbD (w - 1 - k)

/-! ### Frames -/

/-- An ended entry of the channel waits for its completion actions (R26). -/
def endWaits (s : State) (c : Chan) : Bool :=
  match (s.chan c).ctx with
  | some x => x.done.isSome
  | none => false

/-- The burst records b are the records a, of which WAITING ones may have become GRANTED (R100, R102). -/
def RecordsGranted (a b : List FetchRec) : Prop :=
  b.length = a.length ∧ ∀ (i : Nat) (r : FetchRec), a[i]? = some r →
    b[i]? = some r ∨ (r.st = .waiting ∧ b[i]? = some { r with st := .granted })

/-- The channel b is the channel a but for grants: WAITING burst records may have become GRANTED, and nothing else has changed
(R100, R102). -/
def OnlyGrants (a b : Channel) : Prop :=
  b = { a with fetch := { a.fetch with outs := b.fetch.outs } } ∧ RecordsGranted a.fetch.outs b.fetch.outs

/-- The physical row that serves a logical row of a bank: the spare of its ACTIVE link, else the row itself (R96, R131). -/
def rowServing (s : State) (b : BankNo) (row : Nat) : Nat :=
  match s.store.links.find? fun l => decide (l.bank = b ∧ l.row = row) with
  | none => row
  | some l => if l.state = .active then 4096 + l.spare else row

/-- The physical row in which the burst of a request is made, none for a refresh: the copier's write names its row itself
(R93, R96). -/
def rowOfBurst (s : State) (b : BankNo) : Req → Option Nat
  | .fetch _ a => some (rowServing s b (a / 1024))
  | .loadWrite a => some (rowServing s b (a / 1024))
  | .closeRead a => some (rowServing s b (a / 1024))
  | .mgmtRead a => some (rowServing s b (a / 1024))
  | .retireRead a => some (rowServing s b (a / 1024))
  | .initWrite a => some (rowServing s b (a / 1024))
  | .retireWrite row _ => some row
  | .refresh => none

/-- The state of a controller, `before` the grant, right after it: at an open row a burst in that row begins at once, and a
burst in another row or a refresh closes the row first; with no row open the burst's row is activated, or refreshed
(R95, R96, R100). -/
def workBegins (s : State) (b : BankNo) (before : Ctrl) (r : Req) : Ctrl :=
  match before, rowOfBurst s b r with
  | .opened standing, some row => if row = standing then .opened standing else .closing
  | .opened _, none => .closing
  | _, some row => .opening row
  | _, none => .refreshing

/-- The bank with the work that a grant of r commits it to, its close under CLOSE_PAGE settled by the policy of the
moment (R97, R100). -/
def bankGranted (s : State) (b : BankNo) (before : Ctrl) (r : Req) (k : Bank) : Bank :=
  { k with
    ctrl := workBegins s b before r,
    work := some { req := r, closePage := decide (s.store.policy = .closePage), closeAfter := false } }

/-- Bank b of t is that of s, or it was free, the part ACTIVE, and it has made one grant: of a request that waited there, of
a refresh that its debt asks for, or of a fetch burst in this bank, whose channel the round-robin pointer then names
(R95, R99, R100, R178). -/
def GrantsOnly (s t : State) (b : BankNo) : Prop :=
  let k := s.bank b
  t.bank b = k ∨
    (k.work = none ∧ s.part = .active ∧ (k.ctrl = .closed ∨ ∃ row, k.ctrl = .opened row) ∧
      ((∃ r, (r ∈ k.waiting ∨ (r = .refresh ∧ 1 ≤ k.debt)) ∧
          t.bank b = { bankGranted s b k.ctrl r k with waiting := k.waiting.erase r }) ∨
        ∃ c a, bankOf a = b ∧ t.bank b = { bankGranted s b k.ctrl (.fetch c a) k with rr := c }))

/-- t is s but for the lane of channel c and what a lane reaches: the segments' use counts, the start groups, the freed
counts, the event queue, and grants: at the banks, and in the states of other channels' burst records. -/
structure LaneOnly (c : Chan) (s t : State) : Prop where
  rest : t = { s with
    chans := t.chans, segs := t.segs, groups := t.groups, events := t.events,
    ltx := { s.ltx with freed := t.ltx.freed }, store := { s.store with banks := t.store.banks } }
  others : ∀ d, d ≠ c → OnlyGrants (s.chan d) (t.chan d)
  banks : ∀ b, GrantsOnly s t b

/-- A request waits at a bank's arbiter or is the work granted there (R99, R100). -/
def Asked (s : State) (b : BankNo) (r : Req) : Prop :=
  r ∈ (s.bank b).waiting ∨ ∃ w, (s.bank b).work = some w ∧ w.req = r

/-- t is s but for the bank controllers and, where a fetch burst is granted, the states of burst records. -/
def BanksOnly (s t : State) : Prop :=
  t = { s with chans := t.chans, store := { s.store with banks := t.store.banks } } ∧ ∀ c, OnlyGrants (s.chan c) (t.chan c)

/-! ### Entries discarded at an activation, as statements speak of them (R24) -/

/-- The entries at the head of a play queue whose profile is absent: those that an activation now discards (R24). -/
def absentHead (s : State) (c : Chan) : List Entry := (s.chan c).queue.takeWhile fun e => (s.profile e.prof).isNone

/-- The descriptor at index n with its use count lowered by the entries of l that name it (R4). -/
def useWithout (s : State) (l : List Entry) (n : Nat) : Option Desc :=
  (s.seg n).map fun d => { d with use := d.use - l.countP fun e => decide (e.seg.toNat = n) }

/-- The rejection counter raised once for each of n discarded entries (R24). -/
def withRejections (k : ChanCounters) (n : Nat) : ChanCounters := { k with rejections := satInc^[n] k.rejections }

/-- PLAY_REJECT posted with PROFILE_ABSENT and its segment for each entry of l (R24, R170); the bits of the
detail that 12.2 does not name are 0 by the model's choice (log 40). -/
def discardsTold (c : Chan) (l : List Entry) (s : State) : State :=
  l.foldl (fun u e => post (.channel c) .playReject (BitVec.ofNat 8 Code.profileAbsent.num ++ 0#8 ++ e.seg) .ok u) s

/-- The cells at the head of an intake that leave it when its stream has ended: those in front of the next START cell, and
all of them where a next stream would open but the profile is absent (R68, R69, R73). -/
def cellsLost (opens : Bool) (profile : Option Profile) (l : List StreamCell) : List StreamCell :=
  if opens = true ∧ profile = none then l else l.takeWhile fun z => !z.start

/-- PLAY_REJECT posted for each cell of l, with PROFILE_ABSENT for a START cell and NO_STREAM for another (R68, R69, R170);
the bits of the detail that 12.2 does not name are 0 by the model's choice (log 40). -/
def cellsTold (c : Chan) (l : List StreamCell) (s : State) : State :=
  l.foldl (fun u z =>
    post (.channel c) .playReject (BitVec.ofNat 8 (if z.start then Code.profileAbsent else .noStream).num ++ 0#24) .ok u) s

/-! ### Material given up and taken over, as statements speak of it (R104, R106, R107) -/

/-- The Fetch Unit with everything given up: no word, no cursor, and of the records the GRANTED ones, marked for
discard (R107). -/
def fetchEmptied (f : Fetch) : Fetch :=
  { window := [], stale := 0, owed := 0, cursor := none,
    outs := (f.outs.filter fun r => decide (r.st = .granted)).map fun r => { r with discard := true } }

/-- The records that stay when the material of one tag is given up: those of the other tag, and the GRANTED ones of this
tag, marked for discard (R107). -/
def recordsKept (next : Bool) (outs : List FetchRec) : List FetchRec :=
  outs.filterMap fun r =>
    if r.next ≠ next then some r else if r.st = .granted then some { r with discard := true } else none

/-- The records that can be placed at once: the RETURNED ones at the head of the list, which holds two at most (R102,
R106). -/
def recordsDue (outs : List FetchRec) : List FetchRec :=
  (outs.take 2).takeWhile fun r => match r.st with
    | .returned _ => true
    | _ => false

/-- The words that those records bring into the window, and the substitute value behind them: a word of an UNCORRECTABLE
group enters as the substitute value, any other becomes it (R106, R130). -/
def wordsDue (l : List FetchRec) (subst : Sample) : List FetchWord × Sample :=
  let words := l.flatMap fun r => match r.st with
    | .returned ws => ws.map fun w => (w.1, w.2, r.next)
    | _ => []
  words.foldl (fun p w =>
    let v := if w.2.1 then p.2 else w.1
    (p.1 ++ [{ val := v, next := w.2.2 }], v)) ([], subst)

/-- The channel when the material of one tag has been given up and the records then due have been placed (R106, R107).
Words of CURRENT that come late to a phase already past them are stale (log 16). -/
def materialGivenUp (next : Bool) (a : Channel) : Channel :=
  let kept := recordsKept next a.fetch.outs
  let due := recordsDue kept
  let words := (wordsDue due a.subst).1
  let late := if next then min a.fetch.owed (words.countP fun w => !w.next) else 0
  { a with
    subst := (wordsDue due a.subst).2
    fetch :=
      { window := (a.fetch.window.filter fun w => w.next != next) ++ words
        stale := if next then a.fetch.stale + late else 0
        owed := if next then a.fetch.owed - late else 0
        outs := kept.drop due.length
        cursor := if a.fetch.cursor.any fun k => k.next == next then none else a.fetch.cursor } }

/-! ### Start groups, fetch bursts and grants, as statements speak of them -/

/-- Channel c is a member of one group at most (R32). -/
abbrev InOneGroup (s : State) (c : Chan) : Prop :=
  ∀ g k x y, s.groups.get g = some x → s.groups.get k = some y → x.members.get c = true → y.members.get c = true → g = k

/-- The groups of t are those of s after channel c has reported ARMED: its group is complete if every member is ARMED, and
then start-pending at once if it is IMMEDIATE (R40). -/
def ArmingReported (c : Chan) (s t : State) : Prop :=
  ∀ g, t.groups.get g = (s.groups.get g).map fun x =>
    if x.members.get c = true ∧ ∀ d, x.members.get d = true → d = c ∨ (s.chan d).st = .armed then
      { x with complete := true, pending := x.pending || decide (x.mode = .immediate) }
    else x

/-- The start groups after the channels that `gone` names have left theirs: a group left with no member is removed; a group
that keeps members is complete if they are all ARMED, and start-pending at once if it is IMMEDIATE; other groups stay as
they are (R41). -/
def GroupsLeft (gone : Chan → Bool) (s t : State) : Prop :=
  ∀ g, match s.groups.get g with
    | none => t.groups.get g = none
    | some x =>
      if ∀ c, x.members.get c = true → gone c = false then t.groups.get g = some x
      else if ∀ c, x.members.get c = true → gone c = true then t.groups.get g = none
      else ∃ y, t.groups.get g = some y ∧ y.mode = x.mode ∧ (∀ c, y.members.get c = (x.members.get c && !gone c)) ∧
        if ∀ c, x.members.get c = true → gone c = false → (s.chan c).st = .armed then
          y.complete = true ∧ y.pending = (x.pending || decide (x.mode = .immediate))
        else y.complete = x.complete ∧ y.pending = x.pending

/-- The burst that a fetch cursor asks for over a segment, and which words of it are kept: the entry's tag, the first and
the last index kept, the logical address of the burst position (R104). -/
def burstFor (d : Desc) (k : Cursor) : Bool × Nat × Nat × Nat :=
  (k.next, k.idx, min (k.idx / 16 * 16 + 15) (d.length - 1), (d.base + k.idx) / 16 * 16)

/-- Where the cursor stands after that burst: behind its last word, at the loop start of the next pass, or nowhere after
the last pass (R104). -/
def cursorBehind (d : Desc) (k : Cursor) : Option Cursor :=
  let last := min (k.idx / 16 * 16 + 15) (d.length - 1)
  if last + 1 < d.length then some { k with idx := last + 1 }
  else if k.passes = 1 then none
  else some { k with idx := d.loopStart, passes := if k.passes = 0 then 0 else k.passes - 1 }

/-- A record as `burstFor` speaks of it. -/
def askedBurst (r : FetchRec) : Bool × Nat × Nat × Nat := (r.next, r.first, r.last, r.addr)

/-- The Fetch Unit f once it has gone on from g, in a channel in state st that holds the entry `active` and the queue. A
cursor that is none, with an active entry and nothing held or asked for of the NEXT one, moves to the NEXT entry's start
index as soon as one is presented, as it is in PRIMING, ARMED and RUNNING; a burst is asked for while fewer than two are
outstanding and the window has 16 free places for each of them and for itself, which is tested again after each; it is of
the entry that the cursor is on, and the cursor then stands behind it (R104, R105). -/
def FetchGoesOn (s : State) (st : ChState) (active : Option Entry) (queue : List Entry) (g f : Fetch) : Prop :=
  let desc : Bool → Option Desc := fun next => (if next then queue.head? else active).map fun e => s.segOf e.seg
  let presented : Option Entry := if st = .priming ∨ st = .armed ∨ st = .running then queue.head? else none
  let toNext : Bool → Option Cursor := fun held =>
    if held = true ∨ active = none then none
    else presented.map fun e => { next := true, idx := e.startIdx, passes := e.passes }
  let nextHeld : Bool := g.window.any (fun w => w.next) || g.outs.any fun r => r.next && !r.discard
  let ask : List (Bool × Nat × Nat × Nat) × Option Cursor → List (Bool × Nat × Nat × Nat) × Option Cursor := fun p =>
    match p.2 with
    | none => p
    | some k => match desc k.next with
      | none => p
      | some d =>
        let outstanding := g.outs.length + p.1.length
        if outstanding < 2 ∧ 16 * (outstanding + 1) + g.window.length ≤ 64 then
          (p.1 ++ [burstFor d k], (cursorBehind d k).or (toNext (nextHeld || k.next)))
        else p
  let asked := ask (ask ([], g.cursor.or (toNext nextHeld)))
  f.window = g.window ∧ f.stale = g.stale ∧ f.owed = g.owed ∧ f.cursor = asked.2 ∧
    RecordsGranted g.outs (f.outs.take g.outs.length) ∧
    (f.outs.drop g.outs.length).map askedBurst = asked.1 ∧
    ∀ r ∈ f.outs.drop g.outs.length, r.discard = false ∧ (r.st = .waiting ∨ r.st = .granted)

/-- A Fetch Unit with nothing in its window whose cursor is set to the entry e at its start index, with e's passes; of
earlier bursts it has only records (R104, Beginning). -/
def fetchBegun (e : Entry) (outs : List FetchRec) : Fetch :=
  { window := [], stale := 0, owed := 0, outs := outs.map fun r => { r with next := false },
    cursor := some { next := false, idx := e.startIdx, passes := e.passes } }

/-- What the Fetch Unit f holds when the entry e has taken the place of the entry that channel a, RUNNING, held, its phase
starting at i, with `rest` queued behind it. The NEXT words are kept as CURRENT, without those between the start index and
i, and the NEXT records and cursor stay, unless an entry was discarded on the way (`lost`), which the NEXT material was for.
The fetch goes on from that cursor, or begins at the start index where nothing of e was held or asked for (R104 to R107). -/
def FetchTakesOver (s : State) (a : Channel) (lost : Bool) (e : Entry) (rest : List Entry) (i : Nat) (f : Fetch) : Prop :=
  let b := (materialGivenUp false a).fetch
  let words := if lost then [] else b.window.map fun w => { w with next := false }
  let kept := (if lost then recordsKept true b.outs else b.outs).map fun r => { r with next := false }
  let cursor : Option Cursor := if lost then none else b.cursor.map fun k => { k with next := false }
  let begun : Bool := !words.isEmpty || kept.any (fun r => !r.discard) || cursor.isSome
  FetchGoesOn s .running (some e) rest
    { window := words.drop (i - e.startIdx), stale := 0, owed := i - e.startIdx - words.length, outs := kept,
      cursor := if begun then cursor else (fetchBegun e []).cursor } f

/-- The requests of class 3: load writes, the load close read, init writes (R99). -/
def isClass3 : Req → Bool
  | .loadWrite _ => true
  | .closeRead _ => true
  | .initWrite _ => true
  | _ => false

/-- The requests of class 5: management reads, the retire copier's reads and writes (R99). -/
def isClass5 : Req → Bool
  | .mgmtRead _ => true
  | .retireRead _ => true
  | .retireWrite _ _ => true
  | _ => false

/-- What a grant decision at a bank that is free, CLOSED or OPEN as `before` says, gives over the requests that wait in s and
a refresh debt (R95, R96, R99, R100, R103): the classes in their order; in classes 2 and 4 the first channel after the
round-robin pointer and its earliest-issued burst, in classes 3 and 5 the first to arrive; the work begins as `workBegins`
says, and nothing waiting is changed but the request granted. -/
def ArbiterChooses (s : State) (b : BankNo) (before : Ctrl) (debt : Nat) (t : State) : Prop :=
  let waitsAt : FetchRec → Bool := fun r => decide (r.st = .waiting ∧ bankOf r.addr = b)
  let fetch : Chan → Fetch := fun c => (s.chan c).fetch
  let isHungry : Chan → Bool := fun c =>
    decide ((fetch c).window.length - (fetch c).stale < 32 ∧ (fetch c).cursor ≠ none)
  let bids : Bool → Chan → Prop := fun h c => isHungry c = h ∧ ∃ r ∈ (fetch c).outs, waitsAt r = true
  let k := s.bank b
  let no3 := ∀ r ∈ k.waiting, isClass3 r = false
  let no5 := ∀ r ∈ k.waiting, isClass5 r = false
  let gets : Req → Prop := fun r => (t.bank b).ctrl = workBegins s b before r ∧
    (t.bank b).work =
      some { req := r, closePage := decide (s.store.policy = .closePage), closeAfter := false }
  let getsListed : Req → Prop := fun r => gets r ∧ (t.bank b).waiting = k.waiting.erase r ∧ (t.bank b).rr = k.rr ∧
    ∀ c, t.chan c = s.chan c
  let listed : (Req → Bool) → Prop := fun p => ∀ r, k.waiting.find? p = some r → getsListed r
  let fetched : Bool → Prop := fun h => ∀ c r, bids h c → (∀ d, bids h d → (c - k.rr - 1).val ≤ (d - k.rr - 1).val) →
    (fetch c).outs.find? waitsAt = some r → gets (.fetch c r.addr) ∧ (t.bank b).rr = c ∧
      (t.bank b).waiting = k.waiting ∧ (∀ d, d ≠ c → t.chan d = s.chan d) ∧
      ∃ i, (fetch c).outs[i]? = some r ∧ t.chan c = { s.chan c with
        fetch := { fetch c with outs := (fetch c).outs.set i { r with st := .granted } } }
  (4 ≤ debt → getsListed .refresh) ∧
  (debt < 4 → fetched true ∧ ((∀ c, ¬bids true c) →
    listed isClass3 ∧ (no3 → fetched false ∧ ((∀ c, ¬bids false c) →
      listed isClass5 ∧ (no5 →
        (1 ≤ debt → getsListed .refresh) ∧
        (debt = 0 → (t.bank b).work = none ∧ (t.bank b).ctrl = before ∧ (t.bank b).waiting = k.waiting ∧
          (t.bank b).rr = k.rr ∧ ∀ c, t.chan c = s.chan c))))))

/-! ### Outcomes of a read burst, as statements speak of them -/

/-- One CORRECTED or UNCORRECTABLE outcome of logical row r of bank b turns the weak row list l into m; `flags` says that
the row's entry becomes flagged by it (R126): the entry found and raised, or set to 255 where the outcome is bad, or a fresh
one appended, in a full list over the oldest unflagged entry with the lowest count; a list full of flagged entries keeps no
record of it. -/
def WeakRecords (threshold : BitVec 8) (b : BankNo) (r : Nat) (bad : Bool) (l m : List Weak) (flags : Bool) : Prop :=
  let isRow : Weak → Prop := fun x => x.bank = b ∧ x.row = r
  let reaches : BitVec 8 → Bool := fun n => decide (threshold.toNat ≤ n.toNat)
  let first : BitVec 8 := if bad then 255 else 1
  let fresh : Weak := { bank := b, row := r, count := first, flagged := reaches first }
  (∀ pre x post, l = pre ++ x :: post → isRow x → (∀ y ∈ pre, ¬isRow y) →
    let n : BitVec 8 := if bad = true ∨ x.count = 255 then 255 else x.count + 1
    m = pre ++ { x with count := n, flagged := x.flagged || reaches n } :: post ∧ flags = (!x.flagged && reaches n)) ∧
  ((∀ x ∈ l, ¬isRow x) →
    (l.length < 16 → m = l ++ [fresh] ∧ flags = reaches first) ∧
    (16 ≤ l.length → (∀ x ∈ l, x.flagged = true) → m = l ∧ flags = false) ∧
    ∀ pre x post, 16 ≤ l.length → l = pre ++ x :: post → x.flagged = false →
      (∀ y ∈ pre, y.flagged = false → x.count.toNat < y.count.toNat) →
      (∀ y ∈ post, y.flagged = false → x.count.toNat ≤ y.count.toNat) →
      m = pre ++ post ++ [fresh] ∧ flags = reaches first)

/-- The outcomes of a read burst's four groups are recorded in column order, group g by its wrong bits, none, one or two
(R122 to R126, R128, R129): the corrected counter, the fault record of the last UNCORRECTABLE group, the weak row list but
for rows with an ACTIVE USER link, and the events ECC_UNCORRECTABLE and ECC_THRESHOLD,
with the bits of their details that 12.2 does not name 0 by the model's choice (log 40). -/
def OutcomesRecorded (rq : Requester) (b : BankNo) (row addr : Nat) (wrong : Nat → BitVec 72) (s t : State) : Prop :=
  let bad : Nat → Bool := fun g => decide (wrongBits (wrong g) = 2)
  let logical : Nat → Nat := fun g => (addr + 4 * g) / 1024
  let excluded : Nat → Bool := fun g => (s.store.links.find? fun l => decide (l.bank = b ∧ l.row = logical g)).any
    fun l => decide (l.state = .active ∧ l.origin = .user)
  t.store.corrected =
    satInc^[(List.range 4).countP fun g => decide (wrongBits (wrong g) = 1)] s.store.corrected ∧
  t.store.fault = (match (List.range 4).reverse.find? bad with
    | none => s.store.fault
    | some g => { present := true, addr := addr + 4 * g, bank := b, row := row, req := rq,
                  total := satInc^[(List.range 4).countP bad] s.store.fault.total }) ∧
  ∃ (l : Nat → List Weak) (flags : Nat → Bool), l 0 = s.store.weak ∧ l 4 = t.store.weak ∧
    (∀ g, g < 4 →
      if wrongBits (wrong g) = 0 ∨ excluded g = true then l (g + 1) = l g ∧ flags g = false
      else WeakRecords s.store.threshold b (logical g) (bad g) (l g) (l (g + 1)) (flags g)) ∧
    t.events = ((List.range 4).foldl (fun u g =>
      let u1 := if bad g then post .store .eccUncorrectable (BitVec.ofNat 32 (addr + 4 * g)) .ok u else u
      if flags g then post .store .eccThreshold (BitVec.ofNat 32 (b.val * 65536 + logical g % 4096)) .ok u1 else u1)
      s).events

/-- The play entries that name segment i: in the four play queues and in the play contexts (R3). -/
def entriesNaming (s : State) (i : Nat) : Nat :=
  (four.map fun c => (s.chan c).queue.countP (fun e => decide (e.seg.toNat = i)) +
    (match (s.chan c).ctx with
      | some x => if x.entry.seg.toNat = i then 1 else 0
      | none => 0)).sum

/-! ### Laws of the device -/

/-- The event kinds that a source posts (R169). -/
def sourceKinds : Source → List Kind
  | .channel _ => [.playDone, .queueEmpty, .starved, .clipped, .playReject, .triggerMissed, .halted]
  | .store => [.eccThreshold, .eccUncorrectable, .refreshOverrun]
  | .link => [.linkState, .crcError, .queueOverrun, .strayLoad]
  | .storeInit => [.opDone]
  | .retire => [.opDone]
  | .cal => [.opDone]
  | .standbyExit => [.opDone]
  | .load => [.opDone]
  | .clock => [.clockState]

/-- The event queue holds at most one entry for each (source, kind) pair, and only pairs that exist (R169, R171). -/
def EventLaw (s : State) : Prop :=
  (s.events.map fun e => (e.src, e.kind)).Nodup ∧ ∀ e ∈ s.events, e.kind ∈ sourceKinds e.src

/-- The refresh debt of every bank lies between 0 and 8 (R118). -/
def DebtLaw (s : State) : Prop := ∀ b : BankNo, (s.bank b).debt ≤ 8

/-- No queue holds more than its slots: play queues 16, intakes 8, the load buffer 4, the command queue 8, the reply
queue 4 (R19, R66, R108, R152, R156). -/
def SlotLaw (s : State) : Prop :=
  (∀ c : Chan, (s.chan c).queue.length ≤ 16) ∧ (∀ c : Chan, (s.chan c).intake.length ≤ 8) ∧
    s.ldw.buffer.length ≤ 4 ∧ s.cmdQ.length ≤ 8 ∧ s.ltx.replies.length ≤ 4

/-- The cells of a credit class that the part holds (R149). -/
def heldCells (s : State) : CreditClass → Nat
  | .stream c => (s.chan c).intake.length
  | .play c => (s.chan c).queue.length
  | .load => s.ldw.buffer.length
  | .control => s.cmdQ.length

/-- For each credit class, received minus freed, modulo 256, equals the cells held (R149). -/
def CreditLaw (s : State) : Prop :=
  ∀ k : CreditClass, s.lrx.received.get k - s.ltx.freed.get k = BitVec.ofNat 8 (heldCells s k)

/-- The words that a RETURNED record holds; no others are held in a record (R106). -/
def recWords (r : FetchRec) : Nat :=
  match r.st with
  | .returned ws => ws.length
  | _ => 0

/-- Every sample window keeps 16 free places for each outstanding burst, no returned record holds more than 16 words,
and at most two bursts are outstanding (R102, R105); with no active entry nothing is held, asked for or meant, and the
records are those of bursts that will be discarded (R104, R107). -/
def WindowLaw (s : State) : Prop :=
  ∀ c : Chan, (s.chan c).fetch.window.length + 16 * (s.chan c).fetch.outs.length ≤ 64 ∧
    (s.chan c).fetch.outs.length ≤ 2 ∧ (∀ r ∈ (s.chan c).fetch.outs, recWords r ≤ 16) ∧
    ((s.chan c).ctx = none → (s.chan c).fetch = fetchEmptied (s.chan c).fetch)

/-- The pattern store, the Segment Directory and the Profile Table keep their canonical form: keys strictly rising. -/
def TableLaw (s : State) : Prop :=
  tableWf s.store.mem = true ∧ tableWf s.segs = true ∧ tableWf s.profs = true

/-- The weak row list holds at most 16 entries and the remap table at most 32 links, neither ever two for one logical
row (R125, R131). -/
def RowLaw (s : State) : Prop :=
  s.store.weak.length ≤ 16 ∧ (s.store.weak.map fun w => (w.bank, w.row)).Nodup ∧ s.store.links.length ≤ 32 ∧
  (s.store.links.map fun l => (l.bank, l.row)).Nodup

/-- Fields keep their ranges: the rotation index names a credit class, a curve has 33 breakpoints, the clamp levels of a
channel are in order, a stream's phase lies in the head cell, a bank's refresh pointer names a physical row (R154, R78,
R36, R69, R118). -/
def FormLaw (s : State) : Prop :=
  s.ltx.rot ≤ 9 ∧
  (∀ c : Chan, (s.chan c).active.length = 33 ∧ (s.chan c).pendCurve.length = 33 ∧
    (s.chan c).cfg.lo.toInt ≤ (s.chan c).cfg.hi.toInt ∧ ∀ x, (s.chan c).stream = some x → x.i < 16) ∧
  ∀ b : BankNo, (s.bank b).ptr ≤ 4111

/-- The states of a channel and what it holds agree: at rest it holds neither a play context nor a stream, a play context
is held in PLAY mode only and a stream in STREAM mode only, an entry has ended in RUNNING and STOPPING only, and a PRIMING
channel in PLAY mode with nothing active has nothing queued; the open stream of a PRIMING or ARMED channel stands at its
first sample, its START cell heads the intake, and its end position, if known, lies behind that cell; a member of a start
group is PRIMING or ARMED, and no channel is a member of two groups (R22, R23, R26, R29, R39, R41, R69, R70, R74). -/
def SeqLaw (s : State) : Prop :=
  (∀ c : Chan, ((s.chan c).st = .idle ∨ (s.chan c).st = .halted → (s.chan c).ctx = none ∧ (s.chan c).stream = none) ∧
    ((s.chan c).ctx ≠ none → (s.chan c).cfg.mode = .play) ∧
    ((s.chan c).stream ≠ none → (s.chan c).cfg.mode = .stream) ∧
    (endWaits s c = true → (s.chan c).st = .running ∨ (s.chan c).st = .stopping) ∧
    ((s.chan c).st = .priming → (s.chan c).cfg.mode = .play → (s.chan c).ctx = none → (s.chan c).queue = []) ∧
    ∀ x, (s.chan c).stream = some x → (s.chan c).st = .priming ∨ (s.chan c).st = .armed →
      x.i = 0 ∧ ((s.chan c).intake.head?.map fun h => h.start) = some true ∧ ∀ e, x.endPos = some e → 16 ≤ e) ∧
  ∀ c g x, s.groups.get g = some x → x.members.get c = true →
    ((s.chan c).st = .priming ∨ (s.chan c).st = .armed) ∧
    ∀ k y, s.groups.get k = some y → y.members.get c = true → g = k

/-- Every present segment has at least 2 words; a context's phase and a queued entry's start lie inside their segment, and
an entry that passes again has a loop of at least 16 words (R1, R7, R20, R22). -/
def PhaseLaw (s : State) : Prop :=
  let fits : Entry → Nat → BitVec 16 → Prop := fun e i passes =>
    let d := s.segOf e.seg
    i < d.length ∧ (passes = 1 ∨ 16 ≤ d.length - d.loopStart)
  (∀ p ∈ s.segs, 2 ≤ p.2.length) ∧
  ∀ c : Chan, (∀ x, (s.chan c).ctx = some x → fits x.entry x.i x.passes) ∧
    ∀ e ∈ (s.chan c).queue, fits e e.startIdx e.passes

/-- The use count of every present segment is the number of play entries that name it, and no entry names an absent one
(R3). -/
def UseLaw (s : State) : Prop :=
  ∀ i : Nat, (∀ d, s.seg i = some d → d.use = entriesNaming s i) ∧ (s.seg i = none → entriesNaming s i = 0)

/-- No segment in use overlaps an open load window, and none at all is in use while the store is INITIALIZING: what keeps
a playing channel from reading words while they are being replaced (R108). -/
def StoreUseLaw (s : State) : Prop :=
  (∀ w, s.ldw.window = some w → ∀ p ∈ s.segs,
    w.base < p.2.base + p.2.length → p.2.base < w.base + w.length → p.2.use = 0) ∧
  (s.store.state = .initializing → ∀ p ∈ s.segs, p.2.use = 0)

/-- The park code and the held code of every channel lie in its limit window (R36, R45, R55, R65). -/
def LimitLaw (s : State) : Prop :=
  ∀ c : Chan, ∀ v ∈ [(s.chan c).cfg.park, (s.chan c).held],
    (s.chan c).cfg.lo.toInt ≤ v.toInt ∧ v.toInt ≤ (s.chan c).cfg.hi.toInt

/-- The code on the lane of channel c lies in the channel's limit window (R55, R57). -/
def LaneInLimits (s : State) (c : Chan) : Prop :=
  (s.chan c).cfg.lo.toInt ≤ ((s.chan c).port.code - 0x8000).toInt ∧
    ((s.chan c).port.code - 0x8000).toInt ≤ (s.chan c).cfg.hi.toInt

/-- The spare rows that the remap table names, as spare index or as target spare (R131). -/
def namedSpares (s : State) : List (BankNo × Nat) :=
  s.store.links.flatMap fun l => (l.bank, l.spare) :: (l.target.map fun k => (l.bank, k)).toList

/-- A spare is named by at most one link, and is LINKED exactly where one names it; a link is COPYING or has a target only
while the retire of its row is in flight, as none is while RESETN is low, and that retire fills the spare which the link
says; no row with an ACTIVE link of origin USER stands in the weak row list (R125, R131, R134, R137). -/
def LinkLaw (s : State) : Prop :=
  (namedSpares s).Nodup ∧
  (∀ b k, (s.store.spares.get b)[k]? = some .linked ↔ (b, k) ∈ namedSpares s) ∧
  (∀ l ∈ s.store.links, l.state = .copying ∨ l.target ≠ none →
    ∃ r, s.retire = some r ∧ r.bank = l.bank ∧ r.row = l.row) ∧
  (s.resetLow = true → s.retire = none) ∧
  (∀ r, s.retire = some r → ∃ l ∈ s.store.links, l.bank = r.bank ∧ l.row = r.row ∧
    ((l.state = .copying ∧ l.target = none ∧ l.spare = r.spare) ∨ (l.state = .active ∧ l.target = some r.spare))) ∧
  ∀ w ∈ s.store.weak, ∀ l ∈ s.store.links, l.bank = w.bank → l.row = w.row → l.state = .copying ∨ l.origin = .factory

/-- How many requests of a kind wait or are granted, at the four banks together. -/
def asks (s : State) (p : Req → Bool) : Nat :=
  (four.map fun b => (s.bank b).waiting.countP p +
    (match (s.bank b).work with
      | some w => if p w.req then 1 else 0
      | none => 0)).sum

/-- The Load Writer, the Management Unit and the retire copier have at most one request each, the second while a
STORE_READ is in progress and the third while a retire is, at its bank and with its slot IN_FLIGHT; the Load Writer works
on burst positions; a bank in REFRESHING works on a refresh (R95, R99, R108, R114, R135). -/
def AskLaw (s : State) : Prop :=
  asks s (fun r => r.isLoadWrite || r.isCloseRead) ≤ 1 ∧
  asks s Req.isMgmtRead = (match s.mgu with
    | .executing (.storeRead _ _ _ _ _ _) => 1
    | _ => 0) ∧
  asks s (fun r => r.isRetireRead || r.isRetireWrite) = (if s.retire.isSome then 1 else 0) ∧
  s.retire.isSome = s.slots.retire.isSome ∧
  (∀ b q, Asked s b q → q.isRetireRead = true ∨ q.isRetireWrite = true → ∃ r, s.retire = some r ∧ r.bank = b) ∧
  (∀ b a, Asked s b (.closeRead a) → a % 16 = 0) ∧ (∀ w, s.ldw.window = some w → w.next % 16 = 0) ∧
  ∀ b w, (s.bank b).ctrl = .refreshing → (s.bank b).work = some w → w.req = .refresh

/-- The page state table agrees with the marks, but for a page in program and for one whose program a pin reset has just
cut short; the region lock stands only where its mark does (R84, R89). -/
def CalLaw (s : State) : Prop :=
  s.cal.pages.length = 8 ∧ s.cal.written.length = 8 ∧ s.cal.verified.length = 8 ∧ s.cal.states.length = 8 ∧
  (s.cal.lock = true → s.cal.lockMark = true) ∧
  (s.slots.cal = none ∨ s.resetLow = true → s.cal.job = none) ∧
  (∀ p image, s.cal.job = some (.program p image) → p < 8 ∧ s.pageState p = .blank ∧ s.cal.written[p]? = some true ∧
    s.cal.verified[p]? = some false) ∧
  ∀ p, p < 8 →
    s.pageState p = stateOfMarks (s.cal.written.getD p false) (s.cal.verified.getD p false) ∨
    (s.pageState p = .blank ∧ s.cal.written.getD p false = true ∧ s.cal.verified.getD p false = false ∧
      ((∃ image, s.cal.job = some (.program p image)) ∨ s.resetLow = true))

end Sys2Proof.Machine
end

