-- ==== Sys2Proof/Certificates/Slice0/Obligations.lean ====
section
/-! DEFINITION. The statements for the provers. Each is a closed proposition about the model, made from the numbered
rules of the spec that its docstring cites; OBLIGATIONS.json lists them. -/

section

open Sys2Proof Sys2Proof.Machine

/-! ### The part as a whole (00) -/

/-- The step takes the command at the front of the queue and runs it over the queue's rest; with no command waiting a
qualified sample-clock period passes (log 2). -/
def Obligations.StepTakesTheFrontCommand : Prop :=
  (∀ (c : Instr) (rest : List Instr) (s : State), s.pending = c :: rest →
    step s = exec c { s with pending := rest }) ∧
  ∀ s : State, s.pending = [] → step s = .next (samplePeriod s)

/-- Reset (R11, R17, R37, R45, R77, R94, R98, R102, R118, R125, R142, R149, R152, R154, R156, R161, R171, R176): the
values that the spec gives, and every law of the device at once. What the calibration pages hold as shipped is the
model's (log 1), as are the values that log 10, log 19 and log 20 name. -/
def Obligations.ResetMeetsTheLaws : Prop :=
  let s := State.reset
  (∀ n, s.seg n = none) ∧ (∀ i, s.profile i = none) ∧ s.part = .active ∧ s.ckc = { st := .noClock, lockCount := 0 } ∧
  s.lrx.deln = .hunt ∧ (∀ k, s.lrx.received.get k = 0 ∧ s.ltx.freed.get k = 0 ∧ heldCells s k = 0) ∧
  s.ltx.replies = [] ∧ s.ltx.rot = 0 ∧ s.events = [] ∧ s.mask = 0xFFFF ∧ s.mgu = .available ∧ s.cmdQ = [] ∧
  (∀ c, (s.chan c).st = .idle ∧ (s.chan c).ctx = none ∧ (s.chan c).stream = none ∧ (s.chan c).held = 0 ∧
    (s.chan c).subst = 0 ∧ (s.chan c).port = { code := 0x8000, marker := false } ∧
    (s.chan c).fetch.window = [] ∧ (s.chan c).fetch.outs = [] ∧ (s.chan c).fetch.cursor = none ∧
    s.groups.get c = none) ∧
  s.store.state = .uninitialized ∧ s.store.suspect = false ∧ s.store.policy = .openPage ∧ s.store.threshold = 8 ∧
  s.store.weak = [] ∧ s.store.fault.present = false ∧ s.ldw = { window := none, buffer := [] } ∧
  (∀ b, (s.bank b).ctrl = .closed ∧ (s.bank b).work = none ∧ (s.bank b).waiting = [] ∧ (s.bank b).rr = 3 ∧
    (s.bank b).ptr = 0 ∧ (s.bank b).debt = 0 ∧ (s.bank b).overruns = 0) ∧
  s.slots = ⟨none, none, none, none⟩ ∧
  EventLaw s ∧ DebtLaw s ∧ SlotLaw s ∧ CreditLaw s ∧ WindowLaw s ∧ TableLaw s ∧ RowLaw s ∧ FormLaw s ∧ AskLaw s ∧
  SeqLaw s ∧ UseLaw s ∧ StoreUseLaw s ∧ CalLaw s ∧ PhaseLaw s ∧ LimitLaw s ∧ LinkLaw s ∧ ∀ c, LaneInLimits s c

/-- The credit law (R149): every step keeps it that for each credit class the cells received minus the freed count,
modulo 256, are the cells held. -/
def Obligations.EveryStepKeepsTheCreditLaw : Prop :=
  ∀ s t : State, CreditLaw s → step s = .next t → CreditLaw t

/-- The places law (R19, R66, R99, R102, R105, R108, R118, R152, R156): every step keeps every queue within its slots,
every sample window within 64 words with 16 free for each outstanding burst and, with no active entry, nothing held or asked
for but bursts that will be discarded (R104, R107), every refresh debt at most 8, and the Load
Writer, the Management Unit and the retire copier at one request each. Every command gives a next state, and a step takes
nothing from the command queue but its front. -/
def Obligations.EveryStepKeepsTheQueuesInPlace : Prop :=
  ∀ s : State, ∃ t, step s = .next t ∧ t.pending = s.pending.tail ∧ (SlotLaw s → SlotLaw t) ∧
    (WindowLaw s → WindowLaw t) ∧ (DebtLaw s → DebtLaw t) ∧ (AskLaw s → AskLaw t)

/-- The records' law (R36, R55, R65, R78, R118, R125, R131, R134, R137, R154, R169, R171): every step keeps at most one
queued event for each pair of a source and one of its kinds, at most 16 weak rows and at most 32 links with never two for
one row, the canonical form of the store, the directory and the profile table, and the ranges of the rotation index, the
curves, the clamp levels, a stream's phase and the refresh pointers. It keeps the park and held codes within their limits,
and the code on a lane too, but where RESETN falls or a CHANNEL_SET is taken in NO_CLOCK (R55). It keeps each spare named by
at most one link, and the weak row list free of rows with an ACTIVE USER link. -/
def Obligations.EveryStepKeepsTheRecordsInForm : Prop :=
  ∀ s t : State, step s = .next t → (EventLaw s → EventLaw t) ∧ (TableLaw s → TableLaw t) ∧ (RowLaw s → RowLaw t) ∧
    (FormLaw s → FormLaw t) ∧
    (FormLaw s → LimitLaw s → LimitLaw t ∧ ∀ c, LaneInLimits s c → LaneInLimits t c ∨ t.resetLow = true ∨
      (s.ckc.st = .noClock ∧ (t.chan c).cfg ≠ (s.chan c).cfg)) ∧
    (RowLaw s → AskLaw s → LinkLaw s → LinkLaw t)

/-- The use count law (R3, R4, R22, R29, R39, R41, R69, R74): over a directory in its canonical form every step keeps it that a
segment's use count is the number of queued and active play entries that name it, that no entry names an absent segment,
and that what a channel holds and the start groups agree with the channels' states, the open stream of a PRIMING or ARMED
channel with its START cell at the head of the intake among them; and with these, that every present segment has at least
2 words (R1, R7) and a context's phase and a queued entry's start lie inside their segment. -/
def Obligations.EveryStepKeepsTheUseCounts : Prop :=
  ∀ s t : State, TableLaw s → SeqLaw s → UseLaw s → step s = .next t →
    SeqLaw t ∧ UseLaw t ∧ (PhaseLaw s → PhaseLaw t)

/-- Words in use are not replaced (R108, R109, R20, R139): every step keeps it that no segment in use overlaps an open
load window, and that none is in use while the store is INITIALIZING. -/
def Obligations.EveryStepKeepsWordsInUse : Prop :=
  ∀ s t : State, StoreUseLaw s → step s = .next t → StoreUseLaw t

/-- The calibration law (R84, R86, R89 to R91): a page that has left BLANK never returns to it and the region lock once
set stays set, through every command and every reset. -/
def Obligations.CalibrationNeverGoesBack : Prop :=
  ∀ s t : State, CalLaw s → step s = .next t →
    CalLaw t ∧ (∀ p, p < 8 → s.pageState p ≠ .blank → t.pageState p ≠ .blank) ∧
    (s.cal.lock = true → t.cal.lock = true)

/-! ### The shaping arithmetic (03) -/

/-- Steps 2 to 4 (R48 to R51). NEAREST gives y0 whatever the fraction. LINEAR gives y0 plus the rounded share of the
difference that the upper 16 bits of the fraction name, always between the two samples, y0 exactly for a share of 0 and
for equal samples. The gain's rounded product with its range and its particular gains, and the range of the sum with the
offset. -/
def Obligations.InterpolationGainAndOffset : Prop :=
  ∀ (y0 y1 v g : BitVec 16) (o : BitVec 17) (f : BitVec 32),
    let d := y1.toInt - y0.toInt
    let fh : Int := ((f.toNat / 65536 : Nat) : Int)
    let x := interpolate .linear y0.toInt y1.toInt f
    let a := applyGain v.toInt g.toInt
    interpolate .nearest y0.toInt y1.toInt f = y0.toInt ∧
    fh ≤ 65535 ∧ -65535 ≤ d ∧ d ≤ 65535 ∧ x = y0.toInt + (d * fh + 32768) / 65536 ∧
    -4294901760 ≤ d * fh ∧ d * fh ≤ 4294901760 ∧
    min y0.toInt y1.toInt ≤ x ∧ x ≤ max y0.toInt y1.toInt ∧
    (f.toNat < 65536 → x = y0.toInt) ∧ (y0 = y1 → x = y0.toInt) ∧
    a = (v.toInt * g.toInt + 8192) / 16384 ∧ -65534 ≤ a ∧ a ≤ 65536 ∧
    -1073709056 ≤ v.toInt * g.toInt ∧ v.toInt * g.toInt ≤ 1073741824 ∧
    (g.toInt = 16384 → a = v.toInt) ∧ (g.toInt = -16384 → a = -v.toInt) ∧ (g.toInt = 0 → a = 0) ∧
    -131070 ≤ a + o.toInt ∧ a + o.toInt ≤ 131071

/-- Step 6 (R53): straight-line interpolation in the interval of c, between its two breakpoints and so within their range;
the identity curve gives every c back; with BYPASS the curve is not read. The last two clauses show it in a tick's
arithmetic, where a unity gain and no offset make c the sample itself. -/
def Obligations.CurveStaysBetweenBreakpoints : Prop :=
  ∀ (t : Curve) (c y1 : BitVec 16) (f : BitVec 32) (snap : Profile) (lo hi : BitVec 16), t.length = 33 →
    let u := c.toInt + 32768
    let k := (u / 2048).toNat
    let r := u - 2048 * k
    let t0 := (t.getD k 0).toInt
    let t1 := (t.getD (k + 1) 0).toInt
    let e := evalCurve t c.toInt
    let unity := snap.interp = .nearest ∧ snap.gain = 16384 ∧ snap.offset = 0
    0 ≤ u ∧ u ≤ 65535 ∧ k ≤ 31 ∧ 0 ≤ r ∧ r ≤ 2047 ∧ e = t0 + ((t1 - t0) * r + 1024) / 2048 ∧
    -262143 ≤ t1 - t0 ∧ t1 - t0 ≤ 262143 ∧ -536606721 ≤ (t1 - t0) * r ∧ (t1 - t0) * r ≤ 536606721 ∧
    min t0 t1 ≤ e ∧ e ≤ max t0 t1 ∧ -131072 ≤ e ∧ e ≤ 131071 ∧
    evalCurve identityCurve c.toInt = c.toInt ∧
    (unity → snap.curve = .apply → lo.toInt ≤ hi.toInt →
      (shape snap t lo.toInt hi.toInt c.toInt y1.toInt f).out = max lo.toInt (min hi.toInt e)) ∧
    (unity → snap.curve = .bypass → lo.toInt ≤ hi.toInt →
      (shape snap t lo.toInt hi.toInt c.toInt y1.toInt f).out = max lo.toInt (min hi.toInt c.toInt))

/-! ### The Segment Directory and the Profile Table (01) -/

/-- SEG_DEFINE (R7): its checks in their order, then the new descriptor, unlocked and unused. Nothing else changes
but what the take does. -/
def Obligations.SegDefineByItsChecks : Prop :=
  ∀ (tag index : BitVec 16) (base length : BitVec 32) (given : Byte) (loop : BitVec 32) (s : State),
    ReadyActive s →
    let i := Instr.segDefine tag index base length given loop
    (512 ≤ index.toNat → Refuses i s tag 0x01 .badIndex) ∧
    (index.toNat < 512 →
      (∀ d, s.seg index.toNat = some d → 0 < d.use → Refuses i s tag 0x01 .inUse) ∧
      (∀ d, s.seg index.toNat = some d → d.use = 0 → d.locked = true → Refuses i s tag 0x01 .protected_) ∧
      ((∀ d, s.seg index.toNat = some d → d.use = 0 ∧ d.locked = false) →
        if base.toNat % 16 = 0 ∧ 2 ≤ length.toNat ∧ length.toNat ≤ 4194304 ∧
            base.toNat + length.toNat ≤ 4194304 ∧ (given = 0 ∨ given = 1 ∧ loop.toNat < length.toNat) then
          let d : Desc := { base := base.toNat, length := length.toNat,
                            loop := if given = 1 then some loop.toNat else none, locked := false, use := 0 }
          Answers i s tag 0x01 .ok [] { controlTaken s with segs := tablePut s.segs index.toNat d }
        else Refuses i s tag 0x01 .badArg))

/-- SEG_DELETE, SEG_LOCK and SEG_READ (R8, R9, R10): their checks in their order, and what each does or returns. The bytes
of a yes and a no in the reply, 1 and 0, are the model's choice (log 37). -/
def Obligations.SegDeleteLockRead : Prop :=
  ∀ (tag index : BitVec 16) (value : Byte) (s : State), ReadyActive s →
    (512 ≤ index.toNat →
      Refuses (.segDelete tag index) s tag 0x02 .badIndex ∧ Refuses (.segLock tag index value) s tag 0x03 .badIndex ∧
      Refuses (.segRead tag index) s tag 0x04 .badIndex) ∧
    (index.toNat < 512 → 2 ≤ value.toNat → Refuses (.segLock tag index value) s tag 0x03 .badArg) ∧
    (index.toNat < 512 → s.seg index.toNat = none →
      Refuses (.segDelete tag index) s tag 0x02 .notPresent ∧
      (value.toNat < 2 → Refuses (.segLock tag index value) s tag 0x03 .notPresent) ∧
      Answers (.segRead tag index) s tag 0x04 .ok (bytesOf 2 index.toNat ++ List.replicate 16 0) (controlTaken s)) ∧
    (∀ d, index.toNat < 512 → s.seg index.toNat = some d →
      (if 0 < d.use then Refuses (.segDelete tag index) s tag 0x02 .inUse
       else if d.locked = true then Refuses (.segDelete tag index) s tag 0x02 .protected_
       else Answers (.segDelete tag index) s tag 0x02 .ok []
         { controlTaken s with segs := tableErase s.segs index.toNat }) ∧
      (value.toNat < 2 → Answers (.segLock tag index value) s tag 0x03 .ok []
        { controlTaken s with segs := tablePut s.segs index.toNat { d with locked := decide (value = 1) } }) ∧
      Answers (.segRead tag index) s tag 0x04 .ok
        (bytesOf 2 index.toNat ++ [1] ++ bytesOf 4 d.base ++ bytesOf 4 d.length ++
          [if d.loop.isSome then 1 else 0] ++ bytesOf 4 (d.loop.getD 0) ++ [if d.locked then 1 else 0] ++
          bytesOf 1 d.use) (controlTaken s))

/-- PROFILE_WRITE (R13): its checks, the saturated offset, the record stored and returned. PROFILE_CLEAR (R14) and
PROFILE_READ (R15): their checks, the record made absent or returned. Contexts, streams and queues are untouched. That the
reply of PROFILE_WRITE carries the record so laid out (log 23), and the byte 1 of a present record (log 37), are the
model's choices. -/
def Obligations.ProfileWriteClearRead : Prop :=
  (∀ (tag : BitVec 16) (index interp : Byte) (gain : BitVec 16) (offset : BitVec 32) (curve : Byte) (s : State),
     ReadyActive s →
     let i := Instr.profileWrite tag index interp gain offset curve
     (64 ≤ index.toNat → Refuses i s tag 0x05 .badIndex) ∧
     (index.toNat < 64 → 2 ≤ interp.toNat ∨ 2 ≤ curve.toNat → Refuses i s tag 0x05 .badArg) ∧
     (index.toNat < 64 → interp.toNat < 2 → curve.toNat < 2 →
       ∃ p : Profile, p.gain = gain ∧
         p.interp = (if interp = 0 then Interp.nearest else .linear) ∧
         p.curve = (if curve = 0 then CurveUse.apply else .bypass) ∧
         p.offset.toInt = max (-65536) (min 65535 offset.toInt) ∧
         Answers i s tag 0x05 .ok
           ([1] ++ [interp] ++ bytesOf 2 gain.toNat ++ bytesOf 4 (p.offset.signExtend 32).toNat ++ [curve])
           { controlTaken s with profs := tablePut s.profs index.toNat p })) ∧
  (∀ (tag : BitVec 16) (index : Byte) (s : State), ReadyActive s →
     (64 ≤ index.toNat → Refuses (.profileClear tag index) s tag 0x06 .badIndex ∧
       Refuses (.profileRead tag index) s tag 0x07 .badIndex) ∧
     (index.toNat < 64 → s.profile index = none → Refuses (.profileClear tag index) s tag 0x06 .notPresent ∧
       Answers (.profileRead tag index) s tag 0x07 .ok (index :: List.replicate 9 0) (controlTaken s)) ∧
     (∀ p, index.toNat < 64 → s.profile index = some p →
       Answers (.profileClear tag index) s tag 0x06 .ok []
         { controlTaken s with profs := tableErase s.profs index.toNat } ∧
       Answers (.profileRead tag index) s tag 0x07 .ok
         (index :: 1 :: ((if p.interp = .nearest then 0 else 1) :: bytesOf 2 p.gain.toNat ++
           bytesOf 4 (p.offset.signExtend 32).toNat ++ [if p.curve = .apply then 0 else 1])) (controlTaken s)))

/-! ### Channel operations (02) -/

/-- START (R32): its checks; then the group at the lowest free index, complete if every member is already ARMED and then
start-pending at once if it is IMMEDIATE (R40), every member PRIMING or already ARMED, a PLAY member's head entry activated at its start index with fraction 0 and its snapshot (R22, R23, R27), after the entries
before it whose profile is absent are discarded, each with its rejection, its use count and its credit (R24), and a
requested commit made with the activation or the opening (R82); with no material held, as at rest, the entry's fetch begins
at its start index and the member stays PRIMING (R30, R104, R105); a STREAM member opens the stream at its intake head, and is
ARMED with a second cell or the END cell (R69, R74), or drops what cannot open for want of the profile (R68, R69); other
channels, other groups and the rest of the part are untouched: the freed counts but those of the entries and cells that leave
the members, and the banks and the other channels' burst records but for grants.
A named channel whose entry has ended is met as the completion actions leave it (R26), of several the lowest first by the
model's choice (log 13). -/
def Obligations.StartPrimesItsMembers : Prop :=
  ∀ (tag : BitVec 16) (members mode : Byte) (s : State), ReadyActive s →
    let i := Instr.start tag members mode
    (members = 0 ∨ 16 ≤ members.toNat ∨ 2 ≤ mode.toNat → Refuses i s tag 0x10 .badArg) ∧
    (0 < members.toNat → members.toNat < 16 → mode.toNat < 2 →
      ∀ c : Chan, members.getLsbD c.val = true → (∀ d : Chan, d < c → members.getLsbD d.val = true → endWaits s d = false) →
        ∀ u, exec (.entryCompletion c) s = .next u → exec i s = exec i u) ∧
    (0 < members.toNat → members.toNat < 16 → mode.toNat < 2 →
      (∀ c : Chan, members.getLsbD c.val = true → endWaits s c = false) →
      ((∃ c : Chan, members.getLsbD c.val = true ∧ (s.chan c).st ≠ .idle ∧ (s.chan c).st ≠ .halted) →
        Refuses i s tag 0x10 .wrongState) ∧
      (∀ n : Fin 4,
        (∀ c : Chan, members.getLsbD c.val = true →
          ((s.chan c).st = .idle ∨ (s.chan c).st = .halted) ∧ (s.chan c).ctx = none ∧
            ∀ k x, s.groups.get k = some x → x.members.get c = false) →
        s.groups.get n = none → (∀ k, k < n → s.groups.get k ≠ none) →
        ∃ t, Answers i s tag 0x10 .ok [BitVec.ofNat 8 n.val] t ∧
          t = { controlTaken s with
            chans := t.chans, groups := t.groups, segs := t.segs, events := t.events,
            ltx := { (controlTaken s).ltx with freed := t.ltx.freed }, store := { s.store with banks := t.store.banks } } ∧
          (∃ x, t.groups.get n = some x ∧ x.mode = (if mode = 0 then GroupMode.immediate else .trigger) ∧
            (∀ c, x.members.get c = members.getLsbD c.val) ∧
            (x.complete = true ↔ ∀ c : Chan, members.getLsbD c.val = true → (t.chan c).st = .armed) ∧
            x.pending = (x.complete && decide (mode = 0))) ∧
          (∀ k, k ≠ n → t.groups.get k = s.groups.get k) ∧
          (∀ k, t.seg k = useWithout s (four.flatMap fun c =>
            if members.getLsbD c.val = true ∧ (s.chan c).cfg.mode = .play then absentHead s c else []) k) ∧
          (∀ k, t.ltx.freed.get k = (controlTaken s).ltx.freed.get k + BitVec.ofNat 8 (match k with
            | .play c => if members.getLsbD c.val = true ∧ (s.chan c).cfg.mode = .play then
                min ((absentHead s c).length + 1) (s.chan c).queue.length else 0
            | .stream c => if members.getLsbD c.val = true ∧ (s.chan c).cfg.mode = .stream ∧ (s.chan c).stream = none then
                (cellsLost true (s.profile (s.chan c).cfg.prof) (s.chan c).intake).length else 0
            | _ => 0)) ∧
          (∀ b, GrantsOnly s t b) ∧
          ∀ c : Chan,
            (members.getLsbD c.val = false → OnlyGrants (s.chan c) (t.chan c)) ∧
            (members.getLsbD c.val = true →
              ((t.chan c).st = .priming ∨ (t.chan c).st = .armed) ∧ (t.chan c).cfg = (s.chan c).cfg ∧
              (t.chan c).port = (s.chan c).port ∧
              ((s.chan c).cfg.mode = .play →
                (t.chan c).cnt = withRejections (s.chan c).cnt (absentHead s c).length ∧
                t.ltx.freed.get (.play c) =
                  s.ltx.freed.get (.play c) + BitVec.ofNat 8 ((s.chan c).queue.length - (t.chan c).queue.length) ∧
                (absentHead s c ≠ [] → s.mask.getLsbD 4 = true →
                  ∃ q ∈ t.events, q.src = .channel c ∧ q.kind = .playReject)) ∧
              ((s.chan c).cfg.mode = .play → (s.chan c).queue = absentHead s c → (t.chan c).st = .priming ∧
                (t.chan c).ctx = none ∧ (t.chan c).queue = [] ∧
                (t.chan c).active = (s.chan c).active ∧ (t.chan c).commitReq = (s.chan c).commitReq ∧
                ((s.chan c).fetch = fetchEmptied (s.chan c).fetch → (t.chan c).fetch = (s.chan c).fetch)) ∧
              (∀ x rest p, (s.chan c).cfg.mode = .stream → (s.chan c).stream = none →
                (s.chan c).intake = x :: rest → x.start = true → s.profile (s.chan c).cfg.prof = some p →
                (t.chan c).st = (if rest ≠ [] ∨ x.last = true then .armed else .priming) ∧
                (t.chan c).intake = x :: rest ∧ (t.chan c).clippedFlag = false ∧
                (t.chan c).active = (if (s.chan c).commitReq then (s.chan c).pendCurve else (s.chan c).active) ∧
                (t.chan c).commitReq = false ∧
                ∃ y, (t.chan c).stream = some y ∧
                  y = { snap := p, prof := (s.chan c).cfg.prof, incI := (s.chan c).cfg.incI,
                        incF := (s.chan c).cfg.incF, i := 0, f := 0, endPos := y.endPos } ∧
                  (x.last = true → y.endPos = some 16) ∧
                  (x.last = false → (∀ z ∈ rest, z.start = false ∧ z.last = false) → y.endPos = none) ∧
                  ∀ pre z post, x.last = false → rest = pre ++ z :: post →
                    (∀ u ∈ pre, u.start = false ∧ u.last = false) →
                    (z.start = true → y.endPos = some (16 * (pre.length + 1))) ∧
                    (z.start = false → z.last = true → y.endPos = some (16 * (pre.length + 2)))) ∧
              ((s.chan c).cfg.mode = .stream → (s.chan c).stream = none →
                (s.chan c).intake = [] ∨ s.profile (s.chan c).cfg.prof = none →
                t.chan c = { s.chan c with
                  st := .priming, intake := [],
                  cnt := withRejections (s.chan c).cnt (s.chan c).intake.length,
                  fetch := { (s.chan c).fetch with outs := (t.chan c).fetch.outs } } ∧
                t.ltx.freed.get (.stream c) =
                  s.ltx.freed.get (.stream c) + BitVec.ofNat 8 (s.chan c).intake.length) ∧
              (∀ e rest p, (s.chan c).cfg.mode = .play → (s.chan c).queue = absentHead s c ++ e :: rest →
                s.profile e.prof = some p →
                (t.chan c).queue = rest ∧ (t.chan c).clippedFlag = false ∧
                (t.chan c).active = (if (s.chan c).commitReq then (s.chan c).pendCurve else (s.chan c).active) ∧
                (t.chan c).commitReq = false ∧ (t.chan c).pendCurve = (s.chan c).pendCurve ∧
                (t.chan c).ctx = some
                  { entry := e, snap := p, i := e.startIdx, f := 0, passes := e.passes,
                    marker := if e.mark then e.markWidth else 0, done := none } ∧
                ((s.chan c).fetch = fetchEmptied (s.chan c).fetch → e.startIdx < (s.segOf e.seg).length →
                  (t.chan c).st = .priming ∧
                  FetchGoesOn s .priming (some e) rest (fetchBegun e (s.chan c).fetch.outs) (t.chan c).fetch)))))

/-- STOP (R33): its checks, and for each named channel the state it reaches with what is given up and flushed, the use
counts and the credits of the entries and cells that go (R4, R34, R75), and the groups as their members leave them (R41). STOP AT_END on
a RUNNING channel gives up the NEXT words and records and leaves the active entry's (R107). Other
channels keep everything, and the table of profiles, the store's contents and the settings are untouched. A named
channel whose entry has ended is met as the completion actions leave it (R26), of several the lowest first by the model's
choice (log 13). That the marker
falls in the same act as the context's release (log 17), and which words count as behind the phase (log 16), is deduced. -/
def Obligations.StopEndsPlay : Prop :=
  ∀ (tag : BitVec 16) (members mode : Byte) (s : State), ReadyActive s →
    let i := Instr.stop tag members mode
    (members = 0 ∨ 16 ≤ members.toNat ∨ 2 ≤ mode.toNat → Refuses i s tag 0x11 .badArg) ∧
    (0 < members.toNat → members.toNat < 16 → mode.toNat < 2 →
      ∀ c : Chan, members.getLsbD c.val = true → (∀ d : Chan, d < c → members.getLsbD d.val = true → endWaits s d = false) →
        ∀ u, exec (.entryCompletion c) s = .next u → exec i s = exec i u) ∧
    (0 < members.toNat → members.toNat < 16 → mode.toNat < 2 →
      (∀ c : Chan, members.getLsbD c.val = true → endWaits s c = false) →
      ∃ t, Answers i s tag 0x11 .ok [] t ∧
        t = { controlTaken s with
          chans := t.chans, groups := t.groups, segs := t.segs,
          ltx := { (controlTaken s).ltx with freed := t.ltx.freed } } ∧
        (let ends : Chan → Bool := fun c => decide (members.getLsbD c.val = true ∧
           ¬(mode = 1 ∧ ((s.chan c).st = .running ∨ (s.chan c).st = .stopping)))
         let held : Chan → List Entry := fun c =>
           if (s.chan c).st = .idle ∨ (s.chan c).st = .halted then [] else ((s.chan c).ctx.map fun x => x.entry).toList
         let queued : Chan → List Entry := fun c => if (s.chan c).cfg.mode = .play then (s.chan c).queue else []
         let leaves : Chan → Bool := fun c =>
           ends c && decide ((s.chan c).st = .priming ∨ (s.chan c).st = .armed)
         (∀ k, t.seg k = useWithout s (four.flatMap fun c => if ends c then held c ++ queued c else []) k) ∧
         (∀ k, t.ltx.freed.get k = (controlTaken s).ltx.freed.get k + BitVec.ofNat 8 (match k with
           | .play c => if ends c = true ∧ (s.chan c).cfg.mode = .play then (s.chan c).queue.length else 0
           | .stream c => if ends c = true ∧ (s.chan c).cfg.mode = .stream then (s.chan c).intake.length else 0
           | _ => 0)) ∧
         ((∀ c, leaves c = true → InOneGroup s c) → GroupsLeft leaves s t)) ∧
        ∀ c : Chan,
          (members.getLsbD c.val = false → t.chan c = s.chan c) ∧
          (members.getLsbD c.val = true →
            (if mode = 1 ∧ (s.chan c).st = .running then
              t.chan c = { materialGivenUp true (s.chan c) with st := .stopping }
            else if mode = 1 ∧ (s.chan c).st = .stopping then t.chan c = s.chan c
            else
              (t.chan c).st = .idle ∧ (t.chan c).cfg = (s.chan c).cfg ∧ (t.chan c).cnt = (s.chan c).cnt ∧
              ((s.chan c).cfg.mode = .play → (t.chan c).queue = [] ∧ (t.chan c).intake = (s.chan c).intake) ∧
              ((s.chan c).cfg.mode = .stream → (t.chan c).intake = [] ∧ (t.chan c).queue = (s.chan c).queue) ∧
              ((s.chan c).st ≠ .idle → (s.chan c).st ≠ .halted →
                (t.chan c).ctx = none ∧ (t.chan c).stream = none ∧ (t.chan c).fetch = fetchEmptied (s.chan c).fetch ∧
                (t.chan c).port.marker = false))))

/-- FLUSH and SKIP (R24, R34, R35): their checks; the queue emptied and its length returned, the use counts lowered by its
entries and a credit freed for each entry or cell; the active entry released
without a completion and the next one taken at its start index, after the entries before it whose profile is absent are
discarded, each with its rejection, its PLAY_REJECT, its use count and its credit; or the channel IDLE with QUEUE_EMPTY, in
STOPPING after a flush. At the activation a requested commit is made (R82), and the words and records fetched for the next
entry are kept as its own (R104, R107). A channel whose entry has ended is met as the completion actions leave it (R26, R35).
That the released entry's words not yet received are forgotten, and the fall of the
marker in the same act, are deduced (log 16, log 17).
The bits of an event's detail that 12.2 does not name are 0
by the model's choice (log 40). -/
def Obligations.FlushAndSkip : Prop :=
  ∀ (tag : BitVec 16) (channel : Byte) (s : State), ReadyActive s →
    (4 ≤ channel.toNat → Refuses (.flush tag channel) s tag 0x12 .badIndex ∧
      Refuses (.skip tag channel) s tag 0x13 .badIndex) ∧
    ∀ c : Chan, channel.toNat = c.val →
      (∀ u, exec (.entryCompletion c) s = .next u →
        exec (.flush tag channel) s = exec (.flush tag channel) u ∧ exec (.skip tag channel) s = exec (.skip tag channel) u) ∧
      (endWaits s c = false →
      ((s.chan c).st ≠ .idle → (s.chan c).st ≠ .halted → Refuses (.flush tag channel) s tag 0x12 .wrongState) ∧
      ((s.chan c).st = .idle ∨ (s.chan c).st = .halted →
        ∃ t, Answers (.flush tag channel) s tag 0x12 .ok
            [BitVec.ofNat 8 (if (s.chan c).cfg.mode = .play then (s.chan c).queue.length
              else (s.chan c).intake.length)] t ∧
          t = { controlTaken s with
            chans := t.chans, segs := t.segs, ltx := { (controlTaken s).ltx with freed := t.ltx.freed } } ∧
          (∀ d, d ≠ c → t.chan d = s.chan d) ∧
          t.chan c = (if (s.chan c).cfg.mode = .play then { s.chan c with queue := [] }
            else { s.chan c with intake := [] }) ∧
          ((s.chan c).cfg.mode = .play → (∀ k, t.seg k = useWithout s (s.chan c).queue k) ∧
            t.ltx = (freeCredits (.play c) (s.chan c).queue.length (controlTaken s)).ltx) ∧
          ((s.chan c).cfg.mode = .stream → t.segs = s.segs ∧
            t.ltx = (freeCredits (.stream c) (s.chan c).intake.length (controlTaken s)).ltx)) ∧
      ((s.chan c).cfg.mode = .stream ∨ ((s.chan c).st ≠ .running ∧ (s.chan c).st ≠ .stopping) →
        Refuses (.skip tag channel) s tag 0x13 .wrongState) ∧
      ((s.chan c).cfg.mode = .play → (s.chan c).st = .running ∨ (s.chan c).st = .stopping →
        ∃ t, Answers (.skip tag channel) s tag 0x13 .ok [] t ∧ LaneOnly c (controlTaken s) t ∧
          (t.chan c).cfg = (s.chan c).cfg ∧ (t.chan c).cnt.completions = (s.chan c).cnt.completions ∧
          let gone := absentHead s c
          let active := ((s.chan c).ctx.map fun x => x.entry).toList
          ((s.chan c).st = .stopping ∨ (s.chan c).queue = gone →
            (t.chan c).st = .idle ∧ (t.chan c).ctx = none ∧ (t.chan c).queue = [] ∧
            (t.chan c).fetch = fetchEmptied (s.chan c).fetch ∧ (t.chan c).active = (s.chan c).active ∧
            (t.chan c).commitReq = (s.chan c).commitReq ∧
            t.ltx = (freeCredits (.play c) (s.chan c).queue.length (controlTaken s)).ltx ∧
            (∀ k, t.seg k = useWithout s (active ++ (s.chan c).queue) k) ∧
            (s.mask.getLsbD 1 = true → ∃ e ∈ t.events, e.src = .channel c ∧ e.kind = .queueEmpty)) ∧
          ((s.chan c).st = .stopping → (t.chan c).cnt = (s.chan c).cnt) ∧
          ((s.chan c).st = .running → (t.chan c).cnt = withRejections (s.chan c).cnt gone.length) ∧
          (∀ e rest p, (s.chan c).st = .running → (s.chan c).queue = gone ++ e :: rest → s.profile e.prof = some p →
            t.events = (discardsTold c gone s).events ∧
            t.ltx = (freeCredits (.play c) (gone.length + 1) (controlTaken s)).ltx ∧
            (∀ k, t.seg k = useWithout s (active ++ gone) k) ∧
            t.chan c = { s.chan c with
              queue := rest, cnt := withRejections (s.chan c).cnt gone.length, stream := none, clippedFlag := false,
              subst := (materialGivenUp false (s.chan c)).subst,
              port := { (s.chan c).port with marker := false },
              active := if (s.chan c).commitReq then (s.chan c).pendCurve else (s.chan c).active, commitReq := false,
              fetch := (t.chan c).fetch,
              ctx := some
                { entry := e, snap := p, i := e.startIdx, f := 0, passes := e.passes,
                  marker := if e.mark then e.markWidth else 0, done := none } } ∧
            FetchTakesOver s (s.chan c) (decide (gone ≠ [])) e rest e.startIdx (t.chan c).fetch)))

/-- CHANNEL_SET and CHANNEL_READ (R36, R38, R65): the checks in their order; the configuration stored with its park
code clamped, the held code clamped, and the state's code presented at once while there is a clock. CHANNEL_READ returns
the record of 12.2: the group byte with the index in bits 1:0 and the mode in bit 6, or 0xFF with no group, and the
configuration as CHANNEL_SET lays it out (R76, R183). A channel whose entry has
ended is met as the completion actions leave it (R26). That a mode code which
names no mode meets the WRONG_STATE check of a non-empty queue before BAD_ARG is deduced (log 29).
The bits of a reply that 12.2 does not name are 0 by the
model's choice (log 40). -/
def Obligations.ChannelSetAndRead : Prop :=
  ∀ (tag : BitVec 16) (channel mode divider idle : Byte) (park lo hi : BitVec 16) (prof incI : Byte)
    (incF : BitVec 32) (s : State), ReadyActive s →
    let i := Instr.channelSet tag channel mode divider idle park lo hi prof incI incF
    let fieldsOk := mode.toNat < 2 ∧ idle.toNat < 2 ∧ divider.toNat ∈ [1, 2, 4, 8, 16] ∧ lo.toInt ≤ hi.toInt ∧
      prof.toNat ≤ 63 ∧ incI.toNat ≤ 15 ∧ ¬(incI = 0 ∧ incF = 0)
    (4 ≤ channel.toNat → Refuses i s tag 0x14 .badIndex ∧
      Refuses (.channelRead tag channel) s tag 0x15 .badIndex) ∧
    ∀ c : Chan, channel.toNat = c.val →
      (∀ u, exec (.entryCompletion c) s = .next u →
        exec i s = exec i u ∧ exec (.channelRead tag channel) s = exec (.channelRead tag channel) u) ∧
      (endWaits s c = false →
      ((s.chan c).st ≠ .idle → (s.chan c).st ≠ .halted → Refuses i s tag 0x14 .wrongState) ∧
      ((s.chan c).st = .idle ∨ (s.chan c).st = .halted → mode.toNat ≠ (s.chan c).cfg.mode.num →
        (s.chan c).queue ≠ [] ∨ (s.chan c).intake ≠ [] → Refuses i s tag 0x14 .wrongState) ∧
      ((s.chan c).st = .idle ∨ (s.chan c).st = .halted →
        mode.toNat = (s.chan c).cfg.mode.num ∨ ((s.chan c).queue = [] ∧ (s.chan c).intake = []) →
        (¬fieldsOk → Refuses i s tag 0x14 .badArg) ∧
        (fieldsOk → ∃ k : ChanCfg, ∃ x : Channel,
          k = { mode := if mode = 0 then .play else .stream, divider := divider,
                idle := if idle = 0 then .holdLast else .park, park := k.park, lo := lo, hi := hi, prof := prof,
                incI := incI.setWidth 4, incF := incF } ∧
          k.park.toInt = max lo.toInt (min hi.toInt park.toInt) ∧
          x = { s.chan c with cfg := k, held := x.held, port := x.port } ∧
          ((s.ckc.st = .noClock → x.port = (s.chan c).port ∧
            x.held.toInt = max lo.toInt (min hi.toInt (s.chan c).held.toInt)) ∧
          (s.ckc.st ≠ .noClock → x.port = { code := x.held + 0x8000, marker := false } ∧
            x.held.toInt = (if (s.chan c).st = .halted ∨ idle = 1 then k.park.toInt
              else max lo.toInt (min hi.toInt (s.chan c).held.toInt)))) ∧
          Answers i s tag 0x14 .ok
            ([mode, divider, idle] ++ bytesOf 2 k.park.toNat ++ bytesOf 2 lo.toNat ++ bytesOf 2 hi.toNat ++
              [prof, incI] ++ bytesOf 4 incF.toNat) ((controlTaken s).setChan c x))) ∧
      ∃ group : Byte,
        ((∀ g x, s.groups.get g = some x → x.members.get c = false) → group = 0xFF) ∧
        (∀ g x, InOneGroup s c → s.groups.get g = some x → x.members.get c = true →
          group = BitVec.ofNat 8 (g.val + if x.mode = .trigger then 64 else 0)) ∧
        Answers (.channelRead tag channel) s tag 0x15 .ok
        ([BitVec.ofNat 8 (s.chan c).st.num, group,
          BitVec.ofNat 8 (s.chan c).queue.length, BitVec.ofNat 8 (s.chan c).intake.length] ++
          (match (s.chan c).ctx, (s.chan c).stream with
            | some x, _ => bytesOf 2 x.entry.seg.toNat ++ [x.entry.prof] ++ bytesOf 2 x.passes.toNat ++
                bytesOf 3 x.i ++ [x.marker]
            | none, some x => [0, 0] ++ [x.prof] ++ [0, 0] ++ bytesOf 3 x.i ++ [0]
            | none, none => List.replicate 9 0) ++
          (let k := (s.chan c).cfg
           [if k.mode = .play then 0 else 1, k.divider, if k.idle = .holdLast then 0 else 1] ++
             bytesOf 2 k.park.toNat ++ bytesOf 2 k.lo.toNat ++ bytesOf 2 k.hi.toNat ++
             [k.prof, k.incI.setWidth 8] ++ bytesOf 4 k.incF.toNat)) (controlTaken s))

/-! ### Curves and the Calibration Region (05) -/

/-- CURVE_WRITE (R80): its checks, the breakpoints written with saturation, and how many were saturated. -/
def Obligations.CurveWriteSaturates : Prop :=
  ∀ (tag : BitVec 16) (channel first count : Byte) (values : BitVec 192) (s : State), ReadyActive s →
    let i := Instr.curveWrite tag channel first count values
    let v : Nat → Int := fun k => (values.extractLsb' (168 - 24 * k) 24).toInt
    (4 ≤ channel.toNat → Refuses i s tag 0x20 .badIndex) ∧
    ∀ c : Chan, channel.toNat = c.val →
      (count = 0 ∨ 8 < count.toNat ∨ 33 < first.toNat + count.toNat → Refuses i s tag 0x20 .badArg) ∧
      (1 ≤ count.toNat → count.toNat ≤ 8 → first.toNat + count.toNat ≤ 33 → (s.chan c).pendCurve.length = 33 →
        ∃ p : Curve, p.length = 33 ∧
          (∀ j, j < 33 → (p.getD j 0).toInt =
            if first.toNat ≤ j ∧ j < first.toNat + count.toNat then
              max (-131072) (min 131071 (v (j - first.toNat)))
            else ((s.chan c).pendCurve.getD j 0).toInt) ∧
          Answers i s tag 0x20 .ok
            [BitVec.ofNat 8 ((List.range count.toNat).countP fun k => decide (v k < -131072 ∨ 131071 < v k))]
            ((controlTaken s).setChan c { s.chan c with pendCurve := p }))

/-- CURVE_COMMIT and CURVE_READ (R81, R83): a commit made at once, or deferred by a BOUNDARY on a playing channel; the
flag and the breakpoints read as they stand. The bytes of a set and a clear flag, 1 and 0, are the model's choice
(log 37). That at a channel whose entry has ended, its completion still to come, CURVE_COMMIT reads the channel as it stands,
RUNNING or STOPPING, is deduced (log 14). -/
def Obligations.CurveCommitAndRead : Prop :=
  ∀ (tag : BitVec 16) (channel mode first count : Byte) (s : State), ReadyActive s →
    (4 ≤ channel.toNat → Refuses (.curveCommit tag channel mode) s tag 0x21 .badIndex ∧
      Refuses (.curveRead tag channel mode first count) s tag 0x22 .badIndex) ∧
    ∀ c : Chan, channel.toNat = c.val →
      (2 ≤ mode.toNat → Refuses (.curveCommit tag channel mode) s tag 0x21 .badArg) ∧
      (mode = 1 → (s.chan c).st = .running ∨ (s.chan c).st = .stopping →
        Answers (.curveCommit tag channel mode) s tag 0x21 .ok [1]
          ((controlTaken s).setChan c { s.chan c with commitReq := true })) ∧
      (mode = 0 ∨ (mode = 1 ∧ (s.chan c).st ≠ .running ∧ (s.chan c).st ≠ .stopping) →
        Answers (.curveCommit tag channel mode) s tag 0x21 .ok [0]
          ((controlTaken s).setChan c { s.chan c with active := (s.chan c).pendCurve, commitReq := false })) ∧
      (2 ≤ mode.toNat ∨ count = 0 ∨ 8 < count.toNat ∨ 33 < first.toNat + count.toNat →
        Refuses (.curveRead tag channel mode first count) s tag 0x22 .badArg) ∧
      (mode.toNat < 2 → 1 ≤ count.toNat → count.toNat ≤ 8 → first.toNat + count.toNat ≤ 33 →
        Answers (.curveRead tag channel mode first count) s tag 0x22 .ok
          ((if (s.chan c).commitReq then 1 else 0) :: (List.range count.toNat).flatMap fun k =>
            let t := if mode = 1 then (s.chan c).pendCurve else (s.chan c).active
            bytesOf 3 ((t.getD (first.toNat + k) 0).signExtend 24).toNat) (controlTaken s))

/-- CURVE_LOAD (R88, R184): its checks, and the image of the channel's own number copied into the pending curve with
saturation. -/
def Obligations.CurveLoadCopiesOwnImage : Prop :=
  ∀ (tag : BitVec 16) (channel page : Byte) (s : State), ReadyActive s →
    let i := Instr.curveLoad tag channel page
    let image := s.page page.toNat
    (4 ≤ channel.toNat → Refuses i s tag 0x23 .badIndex) ∧
    ∀ c : Chan, channel.toNat = c.val →
      let v : Nat → Int := fun j => (image.extractLsb' (8 * (509 - (99 * c.val + 3 * j))) 24).toInt
      (page = 0 ∨ 7 < page.toNat → Refuses i s tag 0x23 .badArg) ∧
      (1 ≤ page.toNat → page.toNat ≤ 7 →
        (s.pageState page.toNat = .blank → Refuses i s tag 0x23 .blankPage) ∧
        (s.pageState page.toNat = .defective ∨
            (s.pageState page.toNat = .programmed ∧ pageGood image = false) → Refuses i s tag 0x23 .calCorrupt) ∧
        (s.pageState page.toNat = .programmed → pageGood image = true → (s.chan c).pendCurve.length = 33 →
          ∃ p : Curve, p.length = 33 ∧
            (∀ j, j < 33 → (p.getD j 0).toInt = max (-131072) (min 131071 (v j))) ∧
            Answers i s tag 0x23 .ok
              [BitVec.ofNat 8 ((List.range 33).countP fun j => decide (v j < -131072 ∨ 131071 < v j))]
              ((controlTaken s).setChan c { s.chan c with pendCurve := p })))

/-- CAL_READ (R87): its checks, and the page's state, check result and bytes. A page reads as written where its last two
bytes are the check code of bytes 0 to 509, the remainder of their bits, with 16 zeros behind them, in the division by
x^16 + x^15 + x^2 + 1 (R85). -/
def Obligations.CalReadReturnsBytes : Prop :=
  ∀ (tag : BitVec 16) (page : Byte) (offset : BitVec 16) (count : Byte) (s : State), ReadyActive s →
    let i := Instr.calRead tag page offset count
    (∀ p : Page, pageGood p = true ↔ checkCode (coveredBits p) = p.extractLsb' 0 16) ∧
    (7 < page.toNat ∨ 511 < offset.toNat ∨ count = 0 ∨ 24 < count.toNat ∨ 512 < offset.toNat + count.toNat →
      Refuses i s tag 0x24 .badArg) ∧
    (page.toNat ≤ 7 → offset.toNat ≤ 511 → 1 ≤ count.toNat → count.toNat ≤ 24 →
      offset.toNat + count.toNat ≤ 512 →
      ((∃ image, s.cal.job = some (.program page.toNat image)) → Refuses i s tag 0x24 .busy) ∧
      ((∀ image, s.cal.job ≠ some (.program page.toNat image)) →
        Answers i s tag 0x24 .ok
          ([BitVec.ofNat 8 (s.pageState page.toNat).num,
            if s.pageState page.toNat = .blank then 2 else if pageGood (s.page page.toNat) then 0 else 1] ++
            (List.range count.toNat).map fun k =>
              (s.page page.toNat).extractLsb' (8 * (511 - (offset.toNat + k))) 8) (controlTaken s)))

/-- CAL_PROGRAM and CAL_LOCK (R89, R90): their checks, and at acceptance the slot IN_FLIGHT, the written mark set and the
image formed from the four active curves with its check code. CAL_PROGRAM_COMPLETE and CAL_LOCK_COMPLETE (R161): the page
PROGRAMMED or DEFECTIVE, the lock set or clear, the slot IDLE, OP_DONE(CAL) posted with the tag and the outcome. Which
bits and marks took is the command's (log 7).
The bits of an event's detail that 12.2 does not name are 0
by the model's choice (log 40). -/
def Obligations.CalibrationProgramsBeginAndEnd : Prop :=
  (∀ (tag : BitVec 16) (page : Byte) (s : State), ReadyActive s →
     let i := Instr.calProgram tag page
     (page.toNat < 2 ∨ 7 < page.toNat → Refuses i s tag 0x25 .badArg) ∧
     (s.slots.cal ≠ none → (2 ≤ page.toNat → page.toNat ≤ 7 → Refuses i s tag 0x25 .busy) ∧
       Refuses (.calLock tag) s tag 0x26 .busy) ∧
     (s.slots.cal = none → s.cal.lock = true → (2 ≤ page.toNat → page.toNat ≤ 7 → Refuses i s tag 0x25 .locked) ∧
       Refuses (.calLock tag) s tag 0x26 .locked) ∧
     (s.slots.cal = none → s.cal.lock = false →
       (2 ≤ page.toNat → page.toNat ≤ 7 → s.pageState page.toNat ≠ .blank →
         Refuses i s tag 0x25 .alreadyProgrammed) ∧
       (2 ≤ page.toNat → page.toNat ≤ 7 → s.pageState page.toNat = .blank →
         ∃ image : Page, pageGood image = true ∧ image.extractLsb' 16 912 = 0 ∧
           (∀ (c : Chan) (j : Nat), j < 33 → image.extractLsb' (8 * (509 - (99 * c.val + 3 * j))) 24 =
             ((s.chan c).active.getD j 0).signExtend 24) ∧
           Answers i s tag 0x25 .accepted [] { controlTaken s with
             slots := { s.slots with cal := some tag },
             cal := { s.cal with written := s.cal.written.set page.toNat true,
                                 job := some (.program page.toNat image) } }) ∧
       Answers (.calLock tag) s tag 0x26 .accepted [] { controlTaken s with
         slots := { s.slots with cal := some tag }, cal := { s.cal with job := some .lock } })) ∧
  (∀ (faults : Page) (took : Bool) (s : State), s.resetLow = false →
     (∀ p image tag, s.cal.job = some (.program p image) → s.slots.cal = some tag →
       exec (.calProgramComplete faults took) s = .next (post .cal .opDone (tag.setWidth 32)
         (if faults = 0 ∧ took = true then .ok else .programFailed)
         { s with
           slots := { s.slots with cal := none },
           cal := { s.cal with
             pages := s.cal.pages.set p (image ^^^ faults),
             verified := if faults = 0 ∧ took = true then s.cal.verified.set p true else s.cal.verified,
             states := s.cal.states.set p (if faults = 0 ∧ took = true then .programmed else .defective),
             job := none } })) ∧
     (∀ tag, s.cal.job = some .lock → s.slots.cal = some tag → s.cal.lock = false → s.cal.lockMark = false →
       exec (.calLockComplete took) s = .next (post .cal .opDone (tag.setWidth 32)
         (if took = true then .ok else .programFailed)
         { s with
           slots := { s.slots with cal := none },
           cal := { s.cal with lockMark := took, lock := took, job := none } })))

/-! ### Operations on the Pattern Store (06, 07) -/

/-- LOAD_OPEN (R109): its checks in their order, and the window opened. -/
def Obligations.LoadOpenByItsChecks : Prop :=
  ∀ (tag : BitVec 16) (base length : BitVec 32) (s : State), ReadyActive s →
    let i := Instr.loadOpen tag base length
    let retiring := ∃ r, s.retire = some r ∧ base.toNat < rowBase r.bank r.row + 256 ∧
      rowBase r.bank r.row < base.toNat + length.toNat
    let meets : Desc → Prop := fun d =>
      base.toNat < d.base + d.length ∧ d.base < base.toNat + length.toNat
    (s.store.state ≠ .ready → Refuses i s tag 0x30 .notReady) ∧
    (s.store.state = .ready →
      (s.ldw.window ≠ none ∨ retiring → Refuses i s tag 0x30 .busy) ∧
      (s.ldw.window = none → ¬retiring →
        (¬(base.toNat % 16 = 0 ∧ length.toNat % 16 = 0 ∧ 16 ≤ length.toNat ∧ length.toNat ≤ 4194304 ∧
            base.toNat + length.toNat ≤ 4194304) → Refuses i s tag 0x30 .badArg) ∧
        (base.toNat % 16 = 0 → length.toNat % 16 = 0 → 16 ≤ length.toNat → length.toNat ≤ 4194304 →
          base.toNat + length.toNat ≤ 4194304 →
          ((∃ p ∈ s.segs, meets p.2 ∧ p.2.locked = true) → Refuses i s tag 0x30 .protected_) ∧
          ((∀ p ∈ s.segs, meets p.2 → p.2.locked = false) →
            ((∃ p ∈ s.segs, meets p.2 ∧ 0 < p.2.use) → Refuses i s tag 0x30 .inUse) ∧
            ((∀ p ∈ s.segs, meets p.2 → p.2.use = 0) →
              let w : LoadWindow := { base := base.toNat, length := length.toNat, next := base.toNat, written := 0,
                                      accepting := true, tag := tag }
              Answers i s tag 0x30 .ok [] { controlTaken s with ldw := { s.ldw with window := some w } })))))

/-- LOAD_CLOSE (R112): with no write granted the window closes at once, its cells discarded with their credits and its
waiting request withdrawn; with a write granted, accepting is cleared, the cells behind it go, and the reply waits. -/
def Obligations.LoadCloseEndsTheWindow : Prop :=
  ∀ (tag : BitVec 16) (s : State), ReadyActive s →
    (s.ldw.window = none → Refuses (.loadClose tag) s tag 0x31 .notPresent) ∧
    ∀ w, s.ldw.window = some w →
      ((∀ b k, (s.bank b).work = some k → k.req.isLoadWrite = false) →
        ∃ t, Answers (.loadClose tag) s tag 0x31 .ok (bytesOf 4 w.written) t ∧
          t = { controlTaken s with
            ldw := { window := none, buffer := [] },
            ltx := (freeCredits .load s.ldw.buffer.length (controlTaken s)).ltx,
            store := { s.store with banks := t.store.banks } } ∧
          ∀ b, t.bank b = { s.bank b with waiting := (s.bank b).waiting.filter fun r => !r.isLoadWrite }) ∧
      (∀ b k head rest, (s.bank b).work = some k → k.req.isLoadWrite = true → s.ldw.buffer = head :: rest →
        exec (.loadClose tag) s = .next { controlTaken s with
          ldw := { window := some { w with accepting := false }, buffer := [head] },
          ltx := (freeCredits .load rest.length (controlTaken s)).ltx,
          mgu := .executing (.loadClose tag) })

/-- STORE_READ (R114): its checks; then the MGU is EXECUTING it, the first burst position's read is asked of its bank
in class 5, and the reply waits. At a bank at work the request waits; at a free bank with nothing else to do it is granted at
once: at an open row, that of the burst or another, or at a CLOSED bank, in the row that the remap table gives (R95, R96,
R100). -/
def Obligations.StoreReadAsksItsBurst : Prop :=
  ∀ (tag : BitVec 16) (address : BitVec 32) (count : Byte) (s : State), ReadyActive s →
    let i := Instr.storeRead tag address count
    let a := address.toNat / 16 * 16
    (count = 0 ∨ 12 < count.toNat ∨ 4194304 < address.toNat + count.toNat → Refuses i s tag 0x32 .badArg) ∧
    (1 ≤ count.toNat → count.toNat ≤ 12 → address.toNat + count.toNat ≤ 4194304 →
      (s.store.state ≠ .ready → Refuses i s tag 0x32 .notReady) ∧
      (s.store.state = .ready →
        ∃ t, exec i s = .next t ∧
          BanksOnly { controlTaken s with
            mgu := .executing (.storeRead tag address.toNat count.toNat [] [] a) } t ∧
          Asked t (bankOf a) (.mgmtRead a) ∧ (∀ b, b ≠ bankOf a → t.bank b = s.bank b) ∧
          let k := s.bank (bankOf a)
          (k.work ≠ none → t.bank (bankOf a) = { k with waiting := k.waiting ++ [.mgmtRead a] }) ∧
          (k.work = none → k.ctrl = .closed ∨ (∃ row, k.ctrl = .opened row) → k.waiting = [] → k.debt = 0 →
            (∀ c, ∀ r ∈ (s.chan c).fetch.outs, r.st = .waiting → bankOf r.addr ≠ bankOf a) →
            t.bank (bankOf a) = bankGranted s (bankOf a) k.ctrl (.mgmtRead a) k)))

/-- STORE_SET (R97, R117, R127): the settings stored and returned, a threshold of 0 as 1; the weak rows at or above the
threshold flagged; a change to CLOSE_PAGE closes every bank that is OPEN and free. -/
def Obligations.StoreSetStoresItsSettings : Prop :=
  ∀ (tag : BitVec 16) (policy threshold : Byte) (s : State), ReadyActive s →
    let i := Instr.storeSet tag policy threshold
    let th : BitVec 8 := if threshold = 0 then 1 else threshold
    (2 ≤ policy.toNat → Refuses i s tag 0x33 .badArg) ∧
    (policy.toNat < 2 →
      ∃ t, Answers i s tag 0x33 .ok [policy, th] t ∧
        t = { controlTaken s with
          events := t.events,
          store := { s.store with
            policy := if policy = 0 then .openPage else .closePage, threshold := th, banks := t.store.banks,
            weak := s.store.weak.map fun w => if th.toNat ≤ w.count.toNat then { w with flagged := true } else w } } ∧
        (∀ b, t.bank b =
          match (s.bank b).ctrl, (s.bank b).work with
          | .opened row, none =>
            if policy = 1 ∧ s.store.policy = .openPage then { s.bank b with ctrl := .closing }
            else { s.bank b with ctrl := .opened row }
          | _, _ => s.bank b) ∧
        ((∀ w ∈ s.store.weak, th.toNat ≤ w.count.toNat → w.flagged = true) → t.events = s.events) ∧
        ((∃ w ∈ s.store.weak, th.toNat ≤ w.count.toNat ∧ w.flagged = false) → s.mask.getLsbD 7 = true →
          ∃ e ∈ t.events, e.src = .store ∧ e.kind = .eccThreshold))

/-- STORE_INIT (R139, R158): its checks; then the store is INITIALIZING, the slot IN_FLIGHT and the first burst
position of row 0 of every bank asked of its bank. -/
def Obligations.StoreInitBegins : Prop :=
  ∀ (tag : BitVec 16) (s : State), ReadyActive s →
    let i := Instr.storeInit tag
    (s.slots.storeInit ≠ none → Refuses i s tag 0x38 .busy) ∧
    (s.slots.storeInit = none →
      ((∃ p ∈ s.segs, 0 < p.2.use) → Refuses i s tag 0x38 .inUse) ∧
      ((∀ p ∈ s.segs, p.2.use = 0) →
        ((∃ p ∈ s.segs, p.2.locked = true) → Refuses i s tag 0x38 .protected_) ∧
        ((∀ p ∈ s.segs, p.2.locked = false) →
          (s.retire ≠ none ∨ s.ldw.window ≠ none → Refuses i s tag 0x38 .busy) ∧
          (s.retire = none → s.ldw.window = none →
            ∃ t, Answers i s tag 0x38 .accepted [] t ∧
              BanksOnly { controlTaken s with
                slots := { s.slots with storeInit := some tag }, init := some (Quad.fill 0),
                store := { s.store with state := .initializing } } t ∧
              ∀ b : BankNo, Asked t b (.initWrite (b.val * 256))))))

/-- RETIRE_ROW (R134): its checks in their order; then the slot is IN_FLIGHT, the lowest FREE spare of the bank LINKED,
a COPYING link made (or a target given to the row's link), and the copier's first read asked of the bank. -/
def Obligations.RetireRowBegins : Prop :=
  ∀ (tag : BitVec 16) (bank : Byte) (row : BitVec 16) (s : State), ReadyActive s →
    let i := Instr.retireRow tag bank row
    (4 ≤ bank.toNat ∨ 4096 ≤ row.toNat → Refuses i s tag 0x39 .badArg) ∧
    ∀ b : BankNo, bank.toNat = b.val → row.toNat < 4096 →
      let r := row.toNat
      let overWindow := ∃ w, s.ldw.window = some w ∧ w.base < rowBase b r + 256 ∧ rowBase b r < w.base + w.length
      let linked := ∃ l ∈ s.store.links, l.bank = b ∧ l.row = r
      (s.store.state ≠ .ready → Refuses i s tag 0x39 .notReady) ∧
      (s.store.state = .ready →
        (s.slots.retire ≠ none ∨ overWindow → Refuses i s tag 0x39 .busy) ∧
        (s.slots.retire = none → ¬overWindow →
          (32 ≤ s.store.links.length → ¬linked → Refuses i s tag 0x39 .tableFull) ∧
          (s.store.links.length < 32 ∨ linked →
            (SpareState.free ∉ s.store.spares.get b → Refuses i s tag 0x39 .sparesExhausted) ∧
            ∀ n, (s.store.spares.get b)[n]? = some .free →
              (∀ m, m < n → (s.store.spares.get b)[m]? ≠ some .free) →
              let job : Retire := { bank := b, row := r, spare := n, pos := 0, words := 0, bad := 0 }
              let new : Link := { bank := b, row := r, spare := n, target := none, origin := .user, state := .copying }
              let spares := s.store.spares.set b ((s.store.spares.get b).set n .linked)
              ∃ t links, Answers i s tag 0x39 .accepted [] t ∧
                BanksOnly { controlTaken s with
                  slots := { s.slots with retire := some tag }, retire := some job,
                  store := { s.store with links := links, spares := spares } } t ∧
                (¬linked → links = s.store.links ++ [new]) ∧
                (linked → links = s.store.links.map fun l =>
                  if l.bank = b ∧ l.row = r then { l with target := some n } else l) ∧
                Asked t b (.retireRead (rowBase b r)) ∧ ∀ d, d ≠ b → t.bank d = s.bank d)))

/-- WEAK_READ, REMAP_READ and FAULT_READ (R128, R132, R133, R183): their checks and the fields they return. The bytes of a yes
and a no in the reply of FAULT_READ, 1 and 0, are the model's choice (log 37).
The bits of a reply that 12.2 does not name are 0 by the
model's choice (log 40). -/
def Obligations.IntegrityRecordsRead : Prop :=
  ∀ (tag : BitVec 16) (bank first : Byte) (s : State), ReadyActive s →
    let weak : Weak → List Byte := fun w => bytesOf 4 (w.bank.val * 2 ^ 30 + w.row * 2 ^ 18 + w.count.toNat * 2 ^ 10 +
      (if w.flagged then 2 ^ 9 else 0))
    let link : Link → List Byte := fun l => bytesOf 4 (l.bank.val * 2 ^ 30 + l.row * 2 ^ 18 + l.spare * 2 ^ 14 +
      (match l.target with
        | some n => 2 ^ 13 + n * 2 ^ 9
        | none => 0) +
      (if l.origin = .user then 2 ^ 8 else 0) + (if l.state = .active then 2 ^ 7 else 0))
    (15 < first.toNat → Refuses (.weakRead tag first) s tag 0x3A .badArg) ∧
    (first.toNat ≤ 15 → Answers (.weakRead tag first) s tag 0x3A .ok
      (BitVec.ofNat 8 s.store.weak.length :: s.store.threshold ::
        ((s.store.weak.drop first.toNat).take 6).flatMap weak) (controlTaken s)) ∧
    (4 ≤ bank.toNat ∨ 31 < first.toNat → Refuses (.remapRead tag bank first) s tag 0x3B .badArg) ∧
    (∀ b : BankNo, bank.toNat = b.val → first.toNat ≤ 31 →
      let mine := s.store.links.filter fun l => decide (l.bank = b)
      Answers (.remapRead tag bank first) s tag 0x3B .ok
        (bytesOf 4 (((s.store.spares.get b).zipIdx.map fun p => p.1.num * 4 ^ p.2).sum) ++
          [BitVec.ofNat 8 mine.length, BitVec.ofNat 8 s.store.links.length] ++
          ((mine.drop first.toNat).take 5).flatMap link) (controlTaken s)) ∧
    (let f := s.store.fault
     Answers (.faultRead tag) s tag 0x3C .ok
      (if f.present then [1] ++ bytesOf 4 f.addr ++ [BitVec.ofNat 8 f.bank.val] ++ bytesOf 2 f.row ++
          [BitVec.ofNat 8 f.req.num] ++ bytesOf 4 f.total.toNat
        else List.replicate 9 0 ++ bytesOf 4 f.total.toNat) (controlTaken s))

/-! ### The Management Unit (08, 09, 10, 11) -/

/-- Control cells carry the operations of the table (R182): a control cell whose payload begins with an operation's code
does what the operation's own row does with the tag and the arguments at the table's places. -/
def Obligations.ControlCellsCarryTheirOperations : Prop :=
  ∀ (p : Payload) (s : State),
    let b : Nat → Byte := fun k => p.extractLsb' (256 - 8 * (k + 1)) 8
    let h : Nat → BitVec 16 := fun k => p.extractLsb' (256 - 8 * (k + 2)) 16
    let w : Nat → BitVec 32 := fun k => p.extractLsb' (256 - 8 * (k + 4)) 32
    let cell := exec (.controlCell p) s
    let tag := h 1
    (b 0 = 0x01 → cell = exec (.segDefine tag (h 3) (w 5) (w 9) (b 13) (w 14)) s) ∧
    (b 0 = 0x02 → cell = exec (.segDelete tag (h 3)) s) ∧
    (b 0 = 0x03 → cell = exec (.segLock tag (h 3) (b 5)) s) ∧
    (b 0 = 0x04 → cell = exec (.segRead tag (h 3)) s) ∧
    (b 0 = 0x05 → cell = exec (.profileWrite tag (b 3) (b 4) (h 5) (w 7) (b 11)) s) ∧
    (b 0 = 0x06 → cell = exec (.profileClear tag (b 3)) s) ∧
    (b 0 = 0x07 → cell = exec (.profileRead tag (b 3)) s) ∧
    (b 0 = 0x10 → cell = exec (.start tag (b 3) (b 4)) s) ∧
    (b 0 = 0x11 → cell = exec (.stop tag (b 3) (b 4)) s) ∧
    (b 0 = 0x12 → cell = exec (.flush tag (b 3)) s) ∧
    (b 0 = 0x13 → cell = exec (.skip tag (b 3)) s) ∧
    (b 0 = 0x14 → cell = exec
      (.channelSet tag (b 3) (b 4) (b 5) (b 6) (h 7) (h 9) (h 11) (b 13) (b 14) (w 15)) s) ∧
    (b 0 = 0x15 → cell = exec (.channelRead tag (b 3)) s) ∧
    (b 0 = 0x20 → cell = exec (.curveWrite tag (b 3) (b 4) (b 5) (p.extractLsb' 16 192)) s) ∧
    (b 0 = 0x21 → cell = exec (.curveCommit tag (b 3) (b 4)) s) ∧
    (b 0 = 0x22 → cell = exec (.curveRead tag (b 3) (b 4) (b 5) (b 6)) s) ∧
    (b 0 = 0x23 → cell = exec (.curveLoad tag (b 3) (b 4)) s) ∧
    (b 0 = 0x24 → cell = exec (.calRead tag (b 3) (h 4) (b 6)) s) ∧
    (b 0 = 0x25 → cell = exec (.calProgram tag (b 3)) s) ∧
    (b 0 = 0x26 → cell = exec (.calLock tag) s) ∧
    (b 0 = 0x30 → cell = exec (.loadOpen tag (w 3) (w 7)) s) ∧
    (b 0 = 0x31 → cell = exec (.loadClose tag) s) ∧
    (b 0 = 0x32 → cell = exec (.storeRead tag (w 3) (b 7)) s) ∧
    (b 0 = 0x33 → cell = exec (.storeSet tag (b 3) (b 4)) s) ∧
    (b 0 = 0x38 → cell = exec (.storeInit tag) s) ∧
    (b 0 = 0x39 → cell = exec (.retireRow tag (b 3) (h 4)) s) ∧
    (b 0 = 0x3A → cell = exec (.weakRead tag (b 3)) s) ∧
    (b 0 = 0x3B → cell = exec (.remapRead tag (b 3) (b 4)) s) ∧
    (b 0 = 0x3C → cell = exec (.faultRead tag) s) ∧
    (b 0 = 0x40 → cell = exec (.eventsSet tag (h 3)) s) ∧
    (b 0 = 0x48 → cell = exec (.standbyEnter tag) s) ∧
    (b 0 = 0x49 → cell = exec (.standbyExit tag) s) ∧
    (b 0 = 0x50 → cell = exec (.status tag) s) ∧
    (b 0 = 0x51 → cell = exec (.counters tag (b 3) (b 4)) s) ∧
    (b 0 = 0x52 → cell = exec (.softReset tag) s) ∧
    ((b 0).toNat ∉ knownCodes → cell = exec (.undefinedOperation tag (b 0)) s)

/-- CONTROL_CELL (R150, R156, R157): behind a busy MGU or in start-up the cell joins the command queue; with 8 cells
held it is dropped as an overrun and its credit freed; at a part that is Ready it is taken at its arrival. Where the reply
queue holds 4 replies the reply of the operation taken is held and the MGU becomes REPLY_HELD; what the operation does is the
same (R160). -/
def Obligations.ControlCellQueuedOrTaken : Prop :=
  ∀ (p : Payload) (s : State), Listening s →
    (s.mgu ≠ .available ∨ s.startingUp = true → s.cmdQ.length < 8 →
      exec (.controlCell p) s = .next
        { countReceived .control (syncGood s) with cmdQ := s.cmdQ ++ [payloadControl p] }) ∧
    (s.cmdQ.length = 8 →
      exec (.controlCell p) s = .next (post .link .queueOverrun 9 .ok
        { s with
          lrx := { (countReceived .control (syncGood s)).lrx with
            overruns := s.lrx.overruns.set .control (satInc (s.lrx.overruns.get .control)) },
          ltx := (freeCredits .control 1 s).ltx })) ∧
    (Ready s → exec (.controlCell p) s = .next
      (answerOp (p.extractLsb' 232 16) (p.extractLsb' 248 8) (runOp (payloadControl p) (controlTaken s)))) ∧
    (s.startingUp = false → s.mgu = .available → s.cmdQ = [] → 4 ≤ s.ltx.replies.length →
      let a := runOp (payloadControl p) (controlTaken s)
      let held : Code → List Byte → Mgu := fun status data => .replyHeld
        { op := p.extractLsb' 248 8, tag := p.extractLsb' 232 16, status := status, data := data }
      (∀ status data, a.reply = some (status, data) →
        a.st.ltx.replies = s.ltx.replies ∧ exec (.controlCell p) s = .next { a.st with mgu := held status data }) ∧
      (a.reply = none → exec (.controlCell p) s = .next a.st) ∧
      ((p.extractLsb' 248 8).toNat ∉ knownCodes →
        exec (.controlCell p) s = .next { controlTaken s with mgu := held .badOp [] }))

/-- UNDEFINED_OPERATION and the refusals common to all operations (R158): an unknown code is refused BAD_OP in every
part state with its own code in the reply; in STANDBY and EXITING every operation but STATUS, COUNTERS and STANDBY_EXIT
is refused STANDBY. -/
def Obligations.CommonRefusals : Prop :=
  (∀ (tag : BitVec 16) (code : Byte) (s : State), Ready s → code.toNat ∉ knownCodes →
    Refuses (.undefinedOperation tag code) s tag code .badOp) ∧
  (∀ (p : Payload) (s : State), Ready s → s.part ≠ .active →
    let code : Byte := p.extractLsb' 248 8
    code.toNat ∈ knownCodes → code ≠ 0x49 → code ≠ 0x50 → code ≠ 0x51 →
    Refuses (.controlCell p) s (p.extractLsb' 232 16) code .standby)

/-- EVENTS_SET (R175): the mask replaced in the act; queued entries stay; the reply carries the mask as stored and the
number of entries. STATUS (R162, R183): admitted in every part state, it changes nothing and returns the packed record of 12.2.
COUNTERS (R164, R165): its checks, the target's counters as they stand, and with the clear flag those counters set to 0 in
the same act and no others touched. The model's choices in it: which bit of byte 2 of STATUS is which slot (log 39), and
that COUNTERS at a channel whose entry has ended comes before the completion is counted (log 14); that STATUS reads such a
channel as it stands is deduced (log 14).
What the mask and the queue do with a posting (R172, R174): one of a masked kind is discarded; one whose pair is queued
raises that entry's repeat count, up to 65535, and leaves its place, its detail and its status; any other makes a new entry
at the tail, with count 1 and its own detail and status.
The bits of a reply that 12.2 does not name are 0 by the
model's choice (log 40). -/
def Obligations.MaskStatusAndCounters : Prop :=
  (∀ (tag enables : BitVec 16) (s : State), ReadyActive s →
     Answers (.eventsSet tag enables) s tag 0x40 .ok
       (bytesOf 2 enables.toNat ++ [BitVec.ofNat 8 s.events.length]) { controlTaken s with mask := enables }) ∧
  (∀ (tag : BitVec 16) (s : State), Ready s →
     let bit : Bool → Nat → Nat := fun b k => if b then 2 ^ k else 0
     let window : Nat := match s.ldw.window with
       | none => 0
       | some w => if w.accepting then 1 else 2
     let groups : Nat := (four.filter fun g => (s.groups.get g).isSome).length
     let pages : Nat := ((List.range 8).map fun p => (s.pageState p).num * 2 ^ (2 * p)).sum
     Answers (.status tag) s tag 0x50 .ok
       ([BitVec.ofNat 8 (s.part.num + bit s.calFault 2 + s.ckc.st.num * 2 ^ 3 + 2 * 2 ^ 5 + bit s.store.suspect 7),
         BitVec.ofNat 8 (s.store.state.num + s.store.policy.num * 2 ^ 2 + window * 2 ^ 3),
         BitVec.ofNat 8 (bit s.slots.storeInit.isSome 0 + bit s.slots.retire.isSome 1 + bit s.slots.cal.isSome 2 +
           bit s.slots.standbyExit.isSome 3 + groups * 2 ^ 4)] ++
         (four.map fun c => BitVec.ofNat 8 ((s.chan c).st.num + (s.chan c).cfg.mode.num * 2 ^ 4)) ++
         bytesOf 2 pages ++ [BitVec.ofNat 8 (bit s.cal.lock 0)] ++ (controlTaken s).lrx.received.toList ++
         [0, BitVec.ofNat 8 s.ltx.replies.length]) (controlTaken s)) ∧
  (∀ (tag : BitVec 16) (target clear : Byte) (s : State), Ready s →
     let i := Instr.counters tag target clear
     let chan : State → Chan → List (BitVec 32) := fun t c =>
       let k := (t.chan c).cnt
       [k.completions, k.rejections, k.trigMisses, k.starved, k.clipped, k.uncorrectable]
     let o : State → CreditClass → BitVec 32 := fun t k => t.lrx.overruns.get k
     let group : State → Nat → List (BitVec 32) := fun t n =>
       match n with
       | 0 => chan t 0
       | 1 => chan t 1
       | 2 => chan t 2
       | 3 => chan t 3
       | 4 => [t.store.corrected, (t.bank 0).overruns, (t.bank 1).overruns, (t.bank 2).overruns, (t.bank 3).overruns]
       | 5 => [t.lrx.crcDrops, t.lrx.delinLosses, t.lrx.undefKinds, t.lrx.strayLoads]
       | 6 => [o t (.stream 0), o t (.stream 1), o t (.stream 2), o t (.stream 3), o t (.play 0)]
       | _ => [o t (.play 1), o t (.play 2), o t (.play 3), o t .load, o t .control]
     (7 < target.toNat ∨ 2 ≤ clear.toNat → Refuses i s tag 0x51 .badArg) ∧
     (target.toNat ≤ 7 → clear.toNat < 2 →
       ∃ t, Answers i s tag 0x51 .ok
           ([target, clear] ++ (group s target.toNat).flatMap fun n => bytesOf 4 n.toNat) t ∧
         (clear = 0 → t = controlTaken s) ∧
         (clear = 1 →
           (∀ n, n ≤ 7 → group t n =
             if n = target.toNat then (group s n).map (fun _ => 0) else group s n) ∧
           t = { controlTaken s with
             chans := t.chans,
             lrx := { (controlTaken s).lrx with
               crcDrops := t.lrx.crcDrops, delinLosses := t.lrx.delinLosses, undefKinds := t.lrx.undefKinds,
               strayLoads := t.lrx.strayLoads, overruns := t.lrx.overruns },
             store := { s.store with corrected := t.store.corrected, banks := t.store.banks } } ∧
           (∀ c, t.chan c = { s.chan c with cnt := (t.chan c).cnt }) ∧
           (∀ b, t.bank b = { s.bank b with overruns := (t.bank b).overruns })))) ∧
  (∀ (src : Source) (detail : BitVec 32) (status : Code) (s : State) (n : Nat) (kind : Kind),
     let kinds : List Kind :=
       [.playDone, .queueEmpty, .starved, .clipped, .playReject, .triggerMissed, .halted, .eccThreshold,
        .eccUncorrectable, .refreshOverrun, .linkState, .crcError, .queueOverrun, .strayLoad, .opDone, .clockState]
     let isPair : EvEntry → Prop := fun e => e.src = src ∧ e.kind = kind
     kinds[n]? = some kind →
       (s.mask.getLsbD n = false → post src kind detail status s = s) ∧
       (s.mask.getLsbD n = true →
         (∀ pre e rest, s.events = pre ++ e :: rest → isPair e → (∀ x ∈ pre, ¬isPair x) →
           post src kind detail status s = { s with
             events := pre ++ { e with count := if e.count = 65535 then 65535 else e.count + 1 } :: rest }) ∧
         ((∀ x ∈ s.events, ¬isPair x) → post src kind detail status s = { s with
             events := s.events ++ [{ src := src, kind := kind, count := 1, detail := detail, status := status }] })))

/-- STANDBY_ENTER (R178, R121): its checks; the part STANDBY, waiting close reads withdrawn, a bank that is CLOSED in
SELF_REFRESH with debt 0, an open row with no work closing, granted work going on. STANDBY_EXIT (R158, R179, R161):
WRONG_STATE in ACTIVE, BUSY in EXITING; accepted in STANDBY, and complete in the same act if the clock is LOCKED: every
bank leaves SELF_REFRESH with debt 0, the part is ACTIVE, the slot IDLE and OP_DONE posted with the tag; every channel is
as before but for the grants that the arbiters then make. That STANDBY_ENTER reads a channel whose entry has ended, its
completion still to come, as it stands, RUNNING or STOPPING, is deduced (log 14).
The bits of an event's detail that 12.2 does not name are 0
by the model's choice (log 40). -/
def Obligations.StandbyEntryAndExit : Prop :=
  (∀ (tag : BitVec 16) (s : State), ReadyActive s →
     let i := Instr.standbyEnter tag
     let busy := s.slots.storeInit ≠ none ∨ s.slots.retire ≠ none ∨ s.slots.cal ≠ none ∨ s.ldw.window ≠ none
     ((∃ c, (s.chan c).st ≠ .idle ∧ (s.chan c).st ≠ .halted) → Refuses i s tag 0x48 .wrongState) ∧
     ((∀ c, (s.chan c).st = .idle ∨ (s.chan c).st = .halted) →
       (busy → Refuses i s tag 0x48 .busy) ∧
       (¬busy → ∃ t, Answers i s tag 0x48 .ok [] t ∧
         t = { controlTaken s with part := .standby, store := { s.store with banks := t.store.banks } } ∧
         ∀ b, t.bank b =
           let k : Bank := { s.bank b with waiting := (s.bank b).waiting.filter fun r => !r.isCloseRead }
           match k.ctrl, k.work with
           | .closed, none => { k with ctrl := .selfRefresh, debt := 0 }
           | .opened _, none => { k with ctrl := .closing }
           | _, _ => k))) ∧
  (∀ (tag : BitVec 16) (s : State), Ready s →
     let i := Instr.standbyExit tag
     (s.part = .active → s.slots.standbyExit = none → Refuses i s tag 0x49 .wrongState) ∧
     (s.slots.standbyExit ≠ none → Refuses i s tag 0x49 .busy) ∧
     (s.part = .standby → s.slots.standbyExit = none →
       (s.ckc.st ≠ .locked → Answers i s tag 0x49 .accepted []
         { controlTaken s with part := .exiting, slots := { s.slots with standbyExit := some tag } }) ∧
       (s.ckc.st = .locked →
         ∃ t, Answers i s tag 0x49 .accepted [] t ∧
           t = { controlTaken s with
             part := .active, chans := t.chans, store := { s.store with banks := t.store.banks },
             events := (post .standbyExit .opDone (tag.setWidth 32) .ok s).events } ∧
           (∀ c, OnlyGrants (s.chan c) (t.chan c)) ∧
           (∀ b, (s.bank b).ctrl = .selfRefresh → (t.bank b).ctrl ≠ .selfRefresh ∧ (t.bank b).debt = 0) ∧
           (∀ b, (s.bank b).ctrl = .selfRefresh → (s.bank b).work = none → (s.bank b).waiting = [] →
             (∀ c, (s.chan c).fetch.outs = []) → t.bank b = { s.bank b with ctrl := .closed, debt := 0 }))))

/-- SOFT_RESET (R37, R107, R167): refused BUSY with a slot of STORE_INIT, RETIRE or CAL in flight; otherwise every
channel IDLE and empty with its counters 0, its configuration, held code and curves kept, no group, no event, the load
window closed or closing, and every segment's use count lowered by the entries that named it. The fetch requests that wait
are withdrawn and those granted are marked for discard; of the other requests only a load write that waits is withdrawn,
where the window closes at once (R98, R108). Channels whose entries have ended are met as the completion actions leave them
(R26), the lowest first by the model's choice (log 13). -/
def Obligations.SoftResetClearsTheLanes : Prop :=
  ∀ (tag : BitVec 16) (s : State), ReadyActive s →
    let i := Instr.softReset tag
    (s.slots.storeInit ≠ none ∨ s.slots.retire ≠ none ∨ s.slots.cal ≠ none → Refuses i s tag 0x52 .busy) ∧
    (s.slots.storeInit = none → s.slots.retire = none → s.slots.cal = none →
      ∀ c : Chan, (∀ d : Chan, d < c → endWaits s d = false) →
        ∀ u, exec (.entryCompletion c) s = .next u → exec i s = exec i u) ∧
    (s.slots.storeInit = none → s.slots.retire = none → s.slots.cal = none → (∀ c, endWaits s c = false) →
      ∃ t, Answers i s tag 0x52 .ok [] t ∧
        t = { controlTaken s with
          chans := t.chans, groups := Quad.fill none, segs := t.segs, events := [], ldw := t.ldw,
          ltx := { (controlTaken s).ltx with freed := t.ltx.freed },
          store := { s.store with banks := t.store.banks } } ∧
        (∀ c, t.chan c = { s.chan c with
          st := .idle, ctx := none, stream := none, queue := [], intake := [], cnt := ⟨0, 0, 0, 0, 0, 0⟩,
          clippedFlag := false, port := { (s.chan c).port with marker := false }, fetch := (t.chan c).fetch }) ∧
        (∀ c, (t.chan c).fetch.window = [] ∧ (t.chan c).fetch.cursor = none ∧
          (t.chan c).fetch.outs = ((s.chan c).fetch.outs.filter fun r => decide (r.st = .granted)).map fun r =>
            { r with discard := true }) ∧
        (∀ n, t.seg n = (s.seg n).map fun d => { d with use := d.use - entriesNaming s n }) ∧
        (s.ldw.window = none → t.ldw = s.ldw ∧ ∀ b, t.bank b = s.bank b) ∧
        ((∀ b k, (s.bank b).work = some k → k.req.isLoadWrite = false) → s.ldw.window ≠ none →
          t.ldw = { window := none, buffer := [] } ∧
          ∀ b, t.bank b = { s.bank b with waiting := (s.bank b).waiting.filter fun r => !r.isLoadWrite }) ∧
        ((∃ b k, (s.bank b).work = some k ∧ k.req.isLoadWrite = true) → ∀ w, s.ldw.window = some w →
          (∀ b, t.bank b = s.bank b) ∧ t.ldw = { window := some { w with accepting := false }, buffer := s.ldw.buffer.take 1 }))

/-! ### The cell links (08) -/

/-- HUNT_GOOD_CANDIDATE, PRESYNC_CELL and BAD_CELL (R143 to R146): 304 bits of the line by the delineation state. A cell is
good where it is not all zero and its last two bytes are the check code of the 36 before them, the remainder of their bits,
with 16 zeros behind them, in the division by x^16 + x^15 + x^2 + 1. In HUNT
a good candidate begins PRESYNC and a bad one changes nothing; in PRESYNC the fourth good cell completes SYNC and a bad
cell returns to HUNT; in SYNC a bad cell is counted and posted with the bad run, and the third in a row loses SYNC. That
the boundary is 0 at a candidate and moves on by 1 at the return to HUNT, and that the good run is 0 after the loss of SYNC
too, are the model's choices (log 21). -/
def Obligations.DelineationByGoodAndBadCells : Prop :=
  ∀ (cell : Cell) (s : State), s.resetLow = false →
    let linkPost : Nat → State → State := fun d t => post .link .linkState (BitVec.ofNat 32 d) .ok t
    (cellGood cell = true ↔ cell ≠ 0 ∧ checkCode (coveredBits cell) = cell.extractLsb' 0 16) ∧
    (cellGood cell = true → s.lrx.deln = .hunt → exec (.huntGoodCandidate cell) s = .next (linkPost 1
      { s with lrx := { s.lrx with deln := .presync, boundary := 0, goodRun := 0, silence := true } })) ∧
    (cellGood cell = true → s.lrx.deln = .presync → exec (.presyncCell cell) s = .next
      (if s.lrx.goodRun + 1 < 4 then
        { s with lrx := { s.lrx with
          goodRun := s.lrx.goodRun + 1, boundary := s.lrx.boundary + 304, silence := true } }
      else linkPost 2 { s with lrx := { s.lrx with
        deln := .sync, goodRun := s.lrx.goodRun + 1, badRun := 0, boundary := s.lrx.boundary + 304,
        silence := true } })) ∧
    (cellGood cell = false → s.lrx.deln = .hunt → exec (.badCell cell) s = .next s) ∧
    (cellGood cell = false → s.lrx.deln = .presync →
      let t := linkPost 0 { s with lrx := { s.lrx with
        deln := .hunt, goodRun := 0, badRun := 0, boundary := s.lrx.boundary + 1, silence := false } }
      exec (.badCell cell) s = .next t ∧ exec (.presyncCell cell) s = .next t) ∧
    (cellGood cell = false → s.lrx.deln = .sync →
      let n := s.lrx.badRun + 1
      let x : Lrx := { s.lrx with crcDrops := satInc s.lrx.crcDrops }
      exec (.badCell cell) s = .next
        (if n < 3 then post .link .crcError (BitVec.ofNat 32 n) .ok
          { s with lrx := { x with badRun := n, boundary := x.boundary + 304, silence := true } }
        else linkPost 0 (post .link .crcError (BitVec.ofNat 32 n) .ok
          { s with lrx := { x with
            deln := .hunt, goodRun := 0, badRun := 0, boundary := x.boundary + 1, silence := false,
            delinLosses := satInc x.delinLosses } })))

/-- A good cell on the line in SYNC is dispatched by its header (R148, R182): it does what the row of its kind does with
the channel, the flags and the payload that the header table names. That the command PRESYNC_CELL, met in SYNC, is such a
cell is the model's choice (log 6). -/
def Obligations.CellsDispatchedByKind : Prop :=
  ∀ (cell : Cell) (s : State), cellGood cell = true → Listening s →
    let chan : Chan := ⟨(cell.extractLsb' 296 2).toNat, (cell.extractLsb' 296 2).isLt⟩
    let payload : Payload := cell.extractLsb' 16 256
    let kind : Nat := (cell.extractLsb' 300 4).toNat
    exec (.presyncCell cell) s =
      if kind = 1 then exec (.streamCell chan (cell.getLsbD 295) (cell.getLsbD 294) payload) s
      else if kind = 2 then exec (.playCell chan payload) s
      else if kind = 3 then exec (.loadCell payload) s
      else if kind = 4 then exec (.controlCell payload) s
      else if kind = 5 then exec .triggerCell s
      else if kind = 15 then exec .fillCell s
      else exec (.undefinedKindCell (cell.extractLsb' 300 4)) s

/-- SILENCE_TIMER_EXPIRY (R147): back to HUNT with both runs 0 and the timer stopped; a loss is counted from SYNC only;
that an expiry in HUNT changes nothing is the model's choice (log 3). FILL_CELL and UNDEFINED_KIND_CELL in SYNC (R148): no
received count changes; an undefined kind is counted and posts nothing. -/
def Obligations.SilenceFillAndUndefinedKinds : Prop :=
  (∀ s : State, s.resetLow = false →
     (s.lrx.deln = .hunt → exec .silenceTimerExpiry s = .next s) ∧
     (s.lrx.deln ≠ .hunt → exec .silenceTimerExpiry s = .next (post .link .linkState 0 .ok
       { s with lrx := { s.lrx with
         deln := .hunt, goodRun := 0, badRun := 0, silence := false,
         delinLosses := if s.lrx.deln = .sync then satInc s.lrx.delinLosses else s.lrx.delinLosses } }))) ∧
  (∀ (kind : BitVec 4) (s : State), Listening s →
     let x : Lrx := { s.lrx with badRun := 0, boundary := s.lrx.boundary + 304, silence := true }
     exec .fillCell s = .next { s with lrx := x } ∧
     (kind.toNat ∉ [1, 2, 3, 4, 5, 15] →
       exec (.undefinedKindCell kind) s = .next { s with lrx := { x with undefKinds := satInc s.lrx.undefKinds } }))

/-- PLAY_CELL (R18 to R20, R26, R150): a full queue drops the cell as an overrun; otherwise the first failing check of R20
rejects it with its code, its credit freed, no use count changed. At a channel whose entry has
ended, the cell meets the channel as the completion actions leave it; that its arrival is such an event also where the cell
is then an overrun is deduced (log 14).
The bits of an event's detail that 12.2 does not name are 0
by the model's choice (log 40). -/
def Obligations.PlayCellDroppedOrRejected : Prop :=
  ∀ (c : Chan) (p : Payload) (s : State), Listening s →
    (∀ u, exec (.entryCompletion c) s = .next u → exec (.playCell c p) s = exec (.playCell c p) u) ∧
    (endWaits s c = false →
    let seg : BitVec 16 := p.extractLsb' 240 16
    let prof : Byte := p.extractLsb' 232 8
    let inc : Nat := (p.extractLsb' 224 4).toNat * 2 ^ 32 + (p.extractLsb' 192 32).toNat
    let passes : Nat := (p.extractLsb' 176 16).toNat
    let start : Option Nat := if p.getLsbD 228 then some (p.extractLsb' 128 32).toNat else none
    let inLoad : Desc → Bool := fun d => match s.ldw.window with
      | none => false
      | some w => decide (w.base < d.base + d.length ∧ d.base < w.base + w.length)
    let code : Option Code :=
      if (s.chan c).cfg.mode = .stream then some .wrongMode
      else if 511 < seg.toNat ∨ 63 < prof.toNat then some .badIndex
      else match s.seg seg.toNat with
        | none => some .notPresent
        | some d =>
          if s.store.state ≠ .ready then some .notReady
          else if inLoad d then some .inLoad
          else if start.any fun v => decide (d.length ≤ v) then some .badOffset
          else if passes ≠ 1 ∧ d.length - d.loop.getD 0 < 16 then some .badLoop
          else if inc = 0 then some .badRate
          else if s.profile prof = none then some .profileAbsent
          else none
    let r := countReceived (.play c) (syncGood s)
    (16 ≤ (s.chan c).queue.length →
      exec (.playCell c p) s = .next (post .link .queueOverrun (BitVec.ofNat 32 (4 + c.val)) .ok
        { r with
          lrx := { r.lrx with
            overruns := s.lrx.overruns.set (.play c) (satInc (s.lrx.overruns.get (.play c))) },
          ltx := (freeCredits (.play c) 1 s).ltx })) ∧
    ((s.chan c).queue.length < 16 → ∀ k, code = some k →
      exec (.playCell c p) s = .next (post (.channel c) .playReject (BitVec.ofNat 8 k.num ++ 0#8 ++ seg) .ok
        ({ r with ltx := (freeCredits (.play c) 1 s).ltx }.setChan c
          { s.chan c with cnt := { (s.chan c).cnt with rejections := satInc (s.chan c).cnt.rejections } }))))

/-- PLAY_CELL accepted (R3, R18 to R20, R23, R30, R40, R82, R104, R105): the entry joins the tail and the segment's use count
rises by 1; the channel's state stays, but that one PRIMING over an entry is ARMED where its window is primed, and the Fetch
Unit goes on, the cursor moving to the entry where it is the NEXT one and the active one is fully fetched; a PRIMING channel with nothing active, and so nothing queued, activates it at once (no entry is discarded there: the checks
have found its profile present), a requested commit is made with the activation, and with no material held its fetch begins
at the start index with as many bursts as may be outstanding. A present segment has at least 2 words (R1, R7). -/
def Obligations.PlayCellAccepted : Prop :=
  ∀ (c : Chan) (p : Payload) (d : Desc) (prof : Profile) (s : State), Listening s → endWaits s c = false →
    let e : Entry :=
      { seg := p.extractLsb' 240 16, prof := p.extractLsb' 232 8, passes := p.extractLsb' 176 16,
        incI := p.extractLsb' 224 4, incF := p.extractLsb' 192 32, markWidth := p.extractLsb' 168 8,
        splice := p.getLsbD 231, notify := p.getLsbD 230, mark := p.getLsbD 229,
        start := if p.getLsbD 228 then some (p.extractLsb' 128 32) else none }
    (s.chan c).queue.length < 16 → (s.chan c).cfg.mode = .play → e.seg.toNat ≤ 511 → e.prof.toNat ≤ 63 →
    s.seg e.seg.toNat = some d → 2 ≤ d.length → s.store.state = .ready →
    (∀ w, s.ldw.window = some w → ¬(w.base < d.base + d.length ∧ d.base < w.base + w.length)) →
    (∀ v, e.start = some v → v.toNat < d.length) → (e.passes = 1 ∨ 16 ≤ d.length - d.loop.getD 0) →
    ¬(e.incI = 0 ∧ e.incF = 0) → s.profile e.prof = some prof →
    ((s.chan c).st = .priming → (s.chan c).ctx = none → (s.chan c).queue = []) →
    ∃ t, exec (.playCell c p) s = .next t ∧ LaneOnly c (countReceived (.play c) (syncGood s)) t ∧
      (∀ n, t.seg n = if n = e.seg.toNat then some { d with use := d.use + 1 } else s.seg n) ∧
      t.events = s.events ∧
      ((s.chan c).st ≠ .priming ∨ (s.chan c).ctx ≠ none →
        t.ltx = s.ltx ∧
        t.chan c = { s.chan c with
          queue := (s.chan c).queue ++ [e], st := (t.chan c).st, fetch := (t.chan c).fetch } ∧
        FetchGoesOn s (s.chan c).st ((s.chan c).ctx.map fun x => x.entry) ((s.chan c).queue ++ [e]) (s.chan c).fetch
          (t.chan c).fetch) ∧
      ((s.chan c).st ≠ .priming → (t.chan c).st = (s.chan c).st ∧ t.groups = s.groups) ∧
      (∀ x, (s.chan c).st = .priming → (s.chan c).ctx = some x →
        let seg := s.segOf x.entry.seg
        let held := (s.chan c).fetch.window.countP fun y => !y.next
        let order := seg.length - x.entry.startIdx + (x.entry.passes.toNat - 1) * (seg.length - seg.loopStart)
        if 32 ≤ held ∨ (x.entry.passes ≠ 0 ∧ order ≤ held) then
          (t.chan c).st = .armed ∧ (InOneGroup s c → ArmingReported c s t)
        else (t.chan c).st = .priming ∧ t.groups = s.groups) ∧
      ((s.chan c).st = .priming → (s.chan c).ctx = none →
        t.ltx = (freeCredits (.play c) 1 s).ltx ∧
        t.chan c = { s.chan c with
          st := (t.chan c).st, clippedFlag := false, fetch := (t.chan c).fetch,
          active := if (s.chan c).commitReq then (s.chan c).pendCurve else (s.chan c).active, commitReq := false,
          ctx := some
            { entry := e, snap := prof, i := (e.start.map fun v => v.toNat).getD 0, f := 0, passes := e.passes,
              marker := if e.mark then e.markWidth else 0, done := none } } ∧
        ((s.chan c).fetch = fetchEmptied (s.chan c).fetch →
          (t.chan c).st = .priming ∧ t.groups = s.groups ∧
          FetchGoesOn s .priming (some e) [] (fetchBegun e (s.chan c).fetch.outs) (t.chan c).fetch))

/-- STREAM_CELL (R26, R40, R66 to R70, R73, R74, R82, R150): an overrun at a full intake, WRONG_MODE at a PLAY channel, NO_STREAM
for a cell without START at the head while no stream is open, otherwise the tail of the intake. A START cell at a PRIMING
channel opens the stream, or is dropped PROFILE_ABSENT; its END, or a second cell, arms the channel, which reports to its
group. A START cell behind a stream whose cells have all left sets an end position that the phase already reaches: the
stream ends with a completion, and the new one opens, or is dropped, or is flushed in STOPPING. At a
channel whose entry has ended, the cell meets the channel as the completion actions leave it; that its arrival is such an
event also where the cell is then an overrun is deduced (log 14).
The bits of an event's detail that 12.2 does not name are 0
by the model's choice (log 40). -/
def Obligations.StreamCellJoinsOrDrops : Prop :=
  ∀ (c : Chan) (start last : Bool) (p : Payload) (s : State), Listening s →
    let i := Instr.streamCell c start last p
    let cell : StreamCell := { start := start, last := last, data := p }
    let ch := s.chan c
    let r := countReceived (.stream c) (syncGood s)
    let rejected : Code → State := fun k =>
      post (.channel c) .playReject (BitVec.ofNat 8 k.num ++ 0#24) .ok
        ({ r with ltx := (freeCredits (.stream c) 1 s).ltx }.setChan c
          { ch with cnt := { ch.cnt with rejections := satInc ch.cnt.rejections } })
    (∀ u, exec (.entryCompletion c) s = .next u → exec i s = exec i u) ∧
    (endWaits s c = false →
    (8 ≤ ch.intake.length →
      exec i s = .next (post .link .queueOverrun (BitVec.ofNat 32 c.val) .ok
        { r with
          lrx := { r.lrx with
            overruns := s.lrx.overruns.set (.stream c) (satInc (s.lrx.overruns.get (.stream c))) },
          ltx := (freeCredits (.stream c) 1 s).ltx })) ∧
    (ch.intake.length < 8 → ch.cfg.mode = .play → exec i s = .next (rejected .wrongMode)) ∧
    (ch.cfg.mode = .stream → ch.stream = none → ch.intake = [] → start = false →
      exec i s = .next (rejected .noStream)) ∧
    (ch.cfg.mode = .stream → ch.stream = none → ch.intake = [] → start = true → ch.st = .priming →
      s.profile ch.cfg.prof = none → exec i s = .next (rejected .profileAbsent)) ∧
    (ch.cfg.mode = .stream → ch.intake.length < 8 → ch.stream = none → ch.st ≠ .priming →
      (∀ x rest, ch.intake = x :: rest → x.start = true) → (ch.intake = [] → start = true) →
      exec i s = .next (r.setChan c { ch with intake := ch.intake ++ [cell] })) ∧
    (∀ x : Stream, ch.cfg.mode = .stream → ch.intake.length < 8 → ch.stream = some x → ch.st ≠ .priming →
      let e : Option Nat := x.endPos.or
        (if start then some (16 * ch.intake.length) else if last then some (16 * (ch.intake.length + 1)) else none)
      (∀ n, e = some n → x.i < n) →
      exec i s = .next (r.setChan c { ch with
        intake := ch.intake ++ [cell], stream := some { x with endPos := e } })) ∧
    (∀ x : Stream, ch.cfg.mode = .stream → ch.intake.length < 8 → ch.stream = some x → ch.st = .priming →
      InOneGroup s c →
      let e : Option Nat := x.endPos.or
        (if start then some (16 * ch.intake.length) else if last then some (16 * (ch.intake.length + 1)) else none)
      (∀ n, e = some n → x.i < n) → (ch.intake ≠ [] ∨ e ≠ none) →
      ∃ t, exec i s = .next t ∧ ArmingReported c s t ∧
        t = { r.setChan c { ch with
                intake := ch.intake ++ [cell], stream := some { x with endPos := e }, st := .armed } with
              groups := t.groups }) ∧
    (∀ x : Stream, ch.cfg.mode = .stream → ch.intake = [] → ch.stream = some x → x.endPos = none → start = true →
      let ended : Channel := { ch with cnt := { ch.cnt with completions := satInc ch.cnt.completions }, stream := none }
      let empty : State → State := post (.channel c) .queueEmpty 0 .ok
      (∀ prof, ch.st = .running → s.profile ch.cfg.prof = some prof → exec i s = .next (r.setChan c
        { ended with
          intake := [cell], clippedFlag := false,
          active := if ch.commitReq then ch.pendCurve else ch.active, commitReq := false,
          stream := some
            { snap := prof, prof := ch.cfg.prof, incI := ch.cfg.incI, incF := ch.cfg.incF, i := 0, f := 0,
              endPos := if last then some 16 else none } })) ∧
      (ch.st = .running → s.profile ch.cfg.prof = none → exec i s = .next (empty
        (post (.channel c) .playReject (BitVec.ofNat 8 Code.profileAbsent.num ++ 0#24) .ok
          ({ r with ltx := (freeCredits (.stream c) 1 s).ltx }.setChan c { ended with
            st := .idle, cnt := { ended.cnt with rejections := satInc ch.cnt.rejections } })))) ∧
      (ch.st = .stopping → exec i s = .next (empty
        ({ r with ltx := (freeCredits (.stream c) 1 s).ltx }.setChan c { ended with st := .idle })))) ∧
    (∀ prof, ch.cfg.mode = .stream → ch.intake = [] → ch.stream = none → ch.st = .priming → start = true →
      s.profile ch.cfg.prof = some prof →
      ∃ t, exec i s = .next t ∧ LaneOnly c r t ∧ t.events = s.events ∧ t.ltx = s.ltx ∧
        (t.chan c).intake = [cell] ∧ (t.chan c).st = (if last then .armed else .priming) ∧
        (t.chan c).stream = some
          { snap := prof, prof := ch.cfg.prof, incI := ch.cfg.incI, incF := ch.cfg.incF, i := 0, f := 0,
            endPos := if last then some 16 else none } ∧
        (last = false → t.groups = s.groups) ∧ (last = true → InOneGroup s c → ArmingReported c s t)))

/-- LOAD_CELL (R110, R150, R151): stray with detail 0, 1 or 2, an overrun at a full buffer, otherwise the tail of the
buffer; the first cell's write is asked of the bank of the next address. -/
def Obligations.LoadCellBufferedOrStray : Prop :=
  ∀ (p : Payload) (s : State), Listening s →
    let r := countReceived .load (syncGood s)
    let stray : Nat → State := fun n => post .link .strayLoad (BitVec.ofNat 32 n) .ok
      { r with
        lrx := { r.lrx with strayLoads := satInc s.lrx.strayLoads }, ltx := (freeCredits .load 1 s).ltx }
    (s.ldw.window = none → exec (.loadCell p) s = .next (stray 0)) ∧
    ∀ w, s.ldw.window = some w →
      (w.accepting = false → exec (.loadCell p) s = .next (stray 1)) ∧
      (w.accepting = true → w.length ≤ w.written + 16 * s.ldw.buffer.length →
        exec (.loadCell p) s = .next (stray 2)) ∧
      (w.accepting = true → w.written + 16 * s.ldw.buffer.length < w.length →
        (4 ≤ s.ldw.buffer.length → exec (.loadCell p) s = .next (post .link .queueOverrun 8 .ok
          { r with
            lrx := { r.lrx with overruns := s.lrx.overruns.set .load (satInc (s.lrx.overruns.get .load)) },
            ltx := (freeCredits .load 1 s).ltx })) ∧
        (s.ldw.buffer.length < 4 →
          let joined : State := { r with ldw := { s.ldw with buffer := s.ldw.buffer ++ [p] } }
          (loadBusy s = true → exec (.loadCell p) s = .next joined) ∧
          (loadBusy s = false → ∃ t, exec (.loadCell p) s = .next t ∧ BanksOnly joined t ∧
            Asked t (bankOf w.next) (.loadWrite w.next) ∧ ∀ b, b ≠ bankOf w.next → t.bank b = s.bank b)))

/-- UPSTREAM_CELL_START (R153, R154, R157, R160, R173, R183): the cell carries the head reply, else the head event once
start-up has ended, else fill; it is a good cell, closed by the check code of its first 36 bytes (R143), with the credit
report of the class at the rotation index, which moves on; a held reply takes the place that the sent one leaves, and the MGU, AVAILABLE again, takes the oldest cell that waits
and after it the others while it is AVAILABLE, in the same act by the model's reading (log 32). -/
def Obligations.UpstreamCellCarriesItsChoice : Prop :=
  ∀ s : State, s.resetLow = false → s.ltx.rot ≤ 9 →
    let carries : Nat → List Byte → Cell → Prop := fun kind payload cell =>
      cellGood cell = true ∧ checkCode (coveredBits cell) = cell.extractLsb' 0 16 ∧
      (cell.extractLsb' 300 4).toNat = kind ∧ (cell.extractLsb' 296 4).toNat = s.ltx.rot ∧
      cell.extractLsb' 288 8 = s.ltx.freed.toList.getD s.ltx.rot 0 ∧ cell.extractLsb' 272 16 = 0 ∧
      ((List.range 32).map fun k => cell.extractLsb' (8 * (33 - k)) 8) = (payload ++ List.replicate 32 0).take 32
    let sent : Cell → Ltx := fun cell =>
      { s.ltx with line := .cell cell, rot := if s.ltx.rot = 9 then 0 else s.ltx.rot + 1 }
    (∀ r rest, s.ltx.replies = r :: rest →
      ∃ cell, carries 1 ([r.op] ++ bytesOf 2 r.tag.toNat ++ [BitVec.ofNat 8 r.status.num] ++ r.data) cell ∧
        ((∀ h, s.mgu ≠ .replyHeld h) →
          exec .upstreamCellStart s = .next { s with ltx := { sent cell with replies := rest } }) ∧
        (∀ h, s.mgu = .replyHeld h → rest.length < 4 → s.cmdQ = [] ∨ s.startingUp = true →
          exec .upstreamCellStart s = .next
            { s with ltx := { sent cell with replies := rest ++ [h] }, mgu := .available }) ∧
        (∀ h first more, s.mgu = .replyHeld h → rest.length < 4 → s.cmdQ = first :: more → s.startingUp = false →
          exec .upstreamCellStart s = .next (drain more.length (answerOp first.tag (opCodeByte first.op)
            (runOp first (freeCredits .control 1
              { s with ltx := { sent cell with replies := rest ++ [h] }, mgu := .available, cmdQ := more })))))) ∧
    (∀ e rest, s.ltx.replies = [] → s.events = e :: rest → s.startingUp = false →
      ∃ cell, carries 2 ([BitVec.ofNat 8 e.src.num, BitVec.ofNat 8 e.kind.num] ++ bytesOf 2 e.count.toNat ++
          bytesOf 4 e.detail.toNat ++ [BitVec.ofNat 8 e.status.num]) cell ∧
        exec .upstreamCellStart s = .next { s with ltx := sent cell, events := rest }) ∧
    (s.ltx.replies = [] → s.events = [] ∨ s.startingUp = true →
      ∃ cell, carries 15 [] cell ∧ exec .upstreamCellStart s = .next { s with ltx := sent cell })

/-! ### Ticks, starts, the sample clock (02, 03, 04, 11) -/

/-- OUTPUT_TICK outside RUNNING and STOPPING (R45, R57, R63, R64): the idle policy's code, or the park code in
HALTED, is presented with the marker deasserted and becomes the held code. A starved tick (R62, R71): the held code again
with the marker deasserted, the starve counted and posted with the segment and the phase; the phase, the marker countdown
and the passes stay. Output ticks fall in LOCKED only (R177); that the command OUTPUT_TICK without a LOCKED clock changes
nothing is the model's choice (log 3).
The bits of an event's detail that 12.2 does not name are 0
by the model's choice (log 40). -/
def Obligations.TicksWithoutSamples : Prop :=
  (∀ (c : Chan) (s : State), s.resetLow = false → endWaits s c = false →
     (s.ckc.st ≠ .locked → exec (.outputTick c) s = .next s) ∧
     (s.ckc.st = .locked → (s.chan c).st ≠ .running → (s.chan c).st ≠ .stopping →
       let v := if (s.chan c).st = .halted ∨ (s.chan c).cfg.idle = .park then (s.chan c).cfg.park
         else (s.chan c).held
       exec (.outputTick c) s = .next (s.setChan c
         { s.chan c with
           held := v, port := { code := v + 0x8000, marker := false },
           divCount := 0, divNow := (s.chan c).cfg.divider.toNat }))) ∧
  (∀ (c : Chan) (s : State), s.resetLow = false → s.ckc.st = .locked →
     let ch := s.chan c
     (ch.st = .running ∨ ch.st = .stopping) →
     let starved : BitVec 16 → Nat → State := fun seg i =>
       post (.channel c) .starved (0#1 ++ seg.setWidth 9 ++ BitVec.ofNat 22 i) .ok (s.setChan c
         { ch with
           cnt := { ch.cnt with starved := satInc ch.cnt.starved },
           port := { code := ch.held + 0x8000, marker := false },
           divCount := 0, divNow := ch.cfg.divider.toNat })
     (∀ x, ch.ctx = some x → x.done = none →
       windowWord ch.fetch 0 = none ∨ (windowWord ch.fetch 1 = none ∧
         (x.i + 1 < (s.segOf x.entry.seg).length ∨ x.passes ≠ 1)) →
       exec (.outputTick c) s = .next (starved x.entry.seg x.i)) ∧
     (∀ x, ch.ctx = none → ch.stream = some x →
       ch.intake = [] ∨ (∃ h, ch.intake = [h] ∧ 16 ≤ x.i + 1 ∧ ∀ e, x.endPos = some e → x.i + 1 < e) →
       exec (.outputTick c) s = .next (starved 0 x.i)))

/-- OUTPUT_TICK of a playing channel whose window holds the pair (R44, R46 to R61, R104 to R106): the code of steps 2 to 8, the
clip counted, the marker while its countdown lasts, and the advance to the next phase, a wrap, or the entry's end. With an
advance or a wrap the words before the new phase leave the window; those of them that have not arrived are owed (log 16),
and the Fetch Unit goes on into the room so made; the entry's end leaves the window to its completion. -/
def Obligations.PlayingTickComputesItsCode : Prop :=
  ∀ (c : Chan) (x : Ctx) (y0 y1 : Sample) (s : State), s.resetLow = false → s.ckc.st = .locked →
    let ch := s.chan c
    let d := s.segOf x.entry.seg
    (ch.st = .running ∨ ch.st = .stopping) → ch.ctx = some x → x.done = none →
    ch.cfg.lo.toInt ≤ ch.cfg.hi.toInt →
    windowWord ch.fetch 0 = some y0 →
    (x.i + 1 < d.length ∨ x.passes ≠ 1 → windowWord ch.fetch 1 = some y1) →
    (d.length ≤ x.i + 1 → x.passes = 1 → y1 = y0) →
    let v : Int := match x.snap.interp with
      | .nearest => y0.toInt
      | .linear => y0.toInt + ((y1.toInt - y0.toInt) * ((x.f.toNat / 65536 : Nat) : Int) + 32768) / 65536
    let b : Int := (v * x.snap.gain.toInt + 8192) / 16384 + x.snap.offset.toInt
    let k : Int := max (-32768) (min 32767 b)
    let j : Nat := ((k + 32768) / 2048).toNat
    let t0 := (ch.active.getD j 0).toInt
    let t1 := (ch.active.getD (j + 1) 0).toInt
    let e : Int := match x.snap.curve with
      | .apply => t0 + ((t1 - t0) * (k + 32768 - 2048 * j) + 1024) / 2048
      | .bypass => k
    let out : Int := max ch.cfg.lo.toInt (min ch.cfg.hi.toInt e)
    let clipped : Prop := k ≠ b ∨ out ≠ e
    let n := x.entry.incI.toNat + (x.f.toNat + x.entry.incF.toNat) / 2 ^ 32
    let f := x.f + x.entry.incF
    let x1 : Ctx := { x with marker := if x.marker = 0 then 0 else x.marker - 1 }
    ∃ t, exec (.outputTick c) s = .next t ∧ LaneOnly c s t ∧
      t.segs = s.segs ∧ t.groups = s.groups ∧ t.ltx = s.ltx ∧
      (t.chan c).held.toInt = out ∧ (t.chan c).port.code = (t.chan c).held + 0x8000 ∧
      (t.chan c).port.marker = decide (x.marker ≠ 0) ∧
      (clipped → (t.chan c).cnt = { ch.cnt with clipped := satInc ch.cnt.clipped } ∧
        (t.chan c).clippedFlag = true ∧
        (ch.clippedFlag = true → t.events = s.events) ∧
        (ch.clippedFlag = false → s.mask.getLsbD 3 = true →
          ∃ q ∈ t.events, q.src = .channel c ∧ q.kind = .clipped)) ∧
      (¬clipped → (t.chan c).cnt = ch.cnt ∧ (t.chan c).clippedFlag = ch.clippedFlag ∧ t.events = s.events) ∧
      t.chan c = { ch with
        held := (t.chan c).held, port := (t.chan c).port, cnt := (t.chan c).cnt,
        clippedFlag := (t.chan c).clippedFlag, ctx := (t.chan c).ctx, fetch := (t.chan c).fetch,
        divCount := 0, divNow := ch.cfg.divider.toNat } ∧
      (x.i + n < d.length → (t.chan c).ctx = some { x1 with i := x.i + n, f := f }) ∧
      (d.length ≤ x.i + n → x.passes = 1 → (t.chan c).ctx = some { x1 with done := some (x.i + n - d.length, f) }) ∧
      (d.length ≤ x.i + n → x.passes ≠ 1 → (t.chan c).ctx = some
        { x1 with
          i := x.i + n - (d.length - d.loop.getD 0), f := f,
          passes := if x.passes = 0 then 0 else x.passes - 1 }) ∧
      (d.length ≤ x.i + n → x.passes = 1 → (t.chan c).fetch = ch.fetch) ∧
      let held := (ch.fetch.window.drop ch.fetch.stale).countP fun w => !w.next
      (x.i + n < d.length ∨ x.passes ≠ 1 →
        FetchGoesOn s ch.st (some x.entry) ch.queue
          { ch.fetch with
            window := ch.fetch.window.drop (ch.fetch.stale + min n held), stale := 0, owed := n - held }
          (t.chan c).fetch)

/-- OUTPUT_TICK over an open stream (R71 to R73): the pair from the intake, the code as for any tick, the phase moved on;
a cell passed by the phase leaves the intake; past the end position the stream ends with a completion and its cells leave.
Then the cells in front of the next START cell are dropped NO_STREAM (R68), each with its rejection, its PLAY_REJECT and its
credit, and that START cell opens the next stream at its first sample (R69), its end position set by the cells held (R70);
without the profile it is dropped PROFILE_ABSENT, and so with every cell behind it (R69); with nothing then left in the
intake, or in STOPPING, where the intake is flushed, the channel goes IDLE with QUEUE_EMPTY.
The bits of an event's detail that 12.2 does not name are 0
by the model's choice (log 40). -/
def Obligations.StreamTickTakesItsSamples : Prop :=
  ∀ (c : Chan) (x : Stream) (h : StreamCell) (rest : List StreamCell) (y1 : Sample) (s : State),
    s.resetLow = false → s.ckc.st = .locked →
    let ch := s.chan c
    (ch.st = .running ∨ ch.st = .stopping) → ch.ctx = none → ch.stream = some x → ch.intake = h :: rest → x.i < 16 →
    let y0 : Sample := h.data.extractLsb' (240 - 16 * x.i) 16
    let ending : Prop := ∃ e, x.endPos = some e ∧ e ≤ x.i + 1
    (ending → y1 = y0) →
    (¬ending → x.i + 1 < 16 → y1 = h.data.extractLsb' (240 - 16 * (x.i + 1)) 16) →
    (¬ending → 16 ≤ x.i + 1 → ∃ h2 more, rest = h2 :: more ∧ y1 = h2.data.extractLsb' 240 16) →
    let r := shape x.snap ch.active ch.cfg.lo.toInt ch.cfg.hi.toInt y0.toInt y1.toInt x.f
    let n := x.i + x.incI.toNat + (x.f.toNat + x.incF.toNat) / 2 ^ 32
    let f := x.f + x.incF
    let clips := r.clip5 || r.clip7
    let told : State := if clips = true ∧ ch.clippedFlag = false then
        post (.channel c) .clipped (0#14 ++ BitVec.ofBool r.clip7 ++ BitVec.ofBool r.clip5 ++ 0#16) .ok s
      else s
    let empty : State → State := post (.channel c) .queueEmpty 0 .ok
    ∃ t, exec (.outputTick c) s = .next t ∧ LaneOnly c s t ∧ t.segs = s.segs ∧ t.groups = s.groups ∧
      (t.chan c).held = BitVec.ofInt 16 r.out ∧
      (t.chan c).port = { code := BitVec.ofInt 16 r.out + 0x8000, marker := false } ∧
      (t.chan c).cnt.clipped = (if clips then satInc ch.cnt.clipped else ch.cnt.clipped) ∧
      (t.chan c).queue = ch.queue ∧ (t.chan c).cfg = ch.cfg ∧
      ((∀ e, x.endPos = some e → n < e) → n < 16 →
        t.ltx = s.ltx ∧ t.events = told.events ∧ (t.chan c).clippedFlag = (ch.clippedFlag || clips) ∧
        (t.chan c).intake = ch.intake ∧ (t.chan c).st = ch.st ∧
        (t.chan c).stream = some { x with i := n, f := f }) ∧
      ((∀ e, x.endPos = some e → n < e) → 16 ≤ n →
        t.ltx = (freeCredits (.stream c) 1 s).ltx ∧ t.events = told.events ∧
        (t.chan c).clippedFlag = (ch.clippedFlag || clips) ∧ (t.chan c).intake = rest ∧ (t.chan c).st = ch.st ∧
        (t.chan c).stream = some { x with i := n - 16, f := f, endPos := x.endPos.map fun e => e - 16 }) ∧
      (∀ e, x.endPos = some e → e ≤ n →
        let left := ch.intake.drop (e / 16)
        let lost := cellsLost (decide (ch.st = .running)) (s.profile ch.cfg.prof) left
        (t.chan c).cnt = withRejections
          { ch.cnt with completions := satInc ch.cnt.completions, clipped := (t.chan c).cnt.clipped } lost.length ∧
        (ch.st = .stopping ∨ lost = left →
          (t.chan c).intake = [] ∧ (t.chan c).stream = none ∧ (t.chan c).st = .idle ∧
          (t.chan c).active = ch.active ∧ (t.chan c).commitReq = ch.commitReq ∧
          t.ltx = (freeCredits (.stream c) ch.intake.length s).ltx ∧
          t.events = (empty (cellsTold c lost told)).events) ∧
        ∀ h2 more p, ch.st = .running → left = lost ++ h2 :: more → s.profile ch.cfg.prof = some p →
          (t.chan c).intake = h2 :: more ∧ (t.chan c).st = .running ∧ (t.chan c).clippedFlag = false ∧
          t.ltx = (freeCredits (.stream c) (e / 16 + lost.length) s).ltx ∧
          t.events = (cellsTold c lost told).events ∧
          (t.chan c).active = (if ch.commitReq then ch.pendCurve else ch.active) ∧ (t.chan c).commitReq = false ∧
          ∃ y, (t.chan c).stream = some y ∧
            y = { snap := p, prof := ch.cfg.prof, incI := ch.cfg.incI, incF := ch.cfg.incF, i := 0, f := 0,
                  endPos := y.endPos } ∧
            (h2.last = true → y.endPos = some 16) ∧
            (h2.last = false → (∀ z ∈ more, z.start = false ∧ z.last = false) → y.endPos = none) ∧
            ∀ pre z post, h2.last = false → more = pre ++ z :: post → (∀ u ∈ pre, u.start = false ∧ u.last = false) →
              (z.start = true → y.endPos = some (16 * (pre.length + 1))) ∧
              (z.start = false → z.last = true → y.endPos = some (16 * (pre.length + 2))))

/-- ENTRY_COMPLETION (R4, R24, R26, R27, R34): the completion counted, PLAY_DONE posted for NOTIFY, the use count lowered,
and the next entry active with the offered overshoot and fraction if it carries SPLICE, after the entries before it whose
profile is absent are discarded, each with its rejection, its PLAY_REJECT, its use count and its credit. At the activation a
requested commit is made (R82); the ended entry's words leave the window, those of the next one are kept as its own, and
the words before a spliced start leave (R104, R106, R107); what the ended entry still asked for is given up, words of the
next one not yet received are owed, and the marker falls, by deduction (log 15, log 16, log 17). With none, or in
STOPPING, where the queue is flushed, the channel is IDLE with QUEUE_EMPTY. That nothing happens with no ended entry is the
model's choice (log 3).
The bits of an event's detail that 12.2 does not name are 0
by the model's choice (log 40). -/
def Obligations.EntryCompletionMovesOn : Prop :=
  ∀ (c : Chan) (s : State), s.resetLow = false →
    (endWaits s c = false → exec (.entryCompletion c) s = .next s) ∧
    ∀ (x : Ctx) (ov : Nat) (f : BitVec 32), (s.chan c).ctx = some x → x.done = some (ov, f) →
      let gone := absentHead s c
      let counted : ChanCounters :=
        { (s.chan c).cnt with completions := satInc (s.chan c).cnt.completions }
      let told := if x.entry.notify then post (.channel c) .playDone (x.entry.seg.setWidth 32) .ok s else s
      let empty : State → State := post (.channel c) .queueEmpty 0 .ok
      ∃ t, exec (.entryCompletion c) s = .next t ∧ LaneOnly c s t ∧ t.groups = s.groups ∧
        (t.chan c).cfg = (s.chan c).cfg ∧ (t.chan c).cnt.completions = satInc (s.chan c).cnt.completions ∧
        (x.entry.notify = true → s.mask.getLsbD 0 = true →
          ∃ q ∈ t.events, q.src = .channel c ∧ q.kind = .playDone) ∧
        ((s.chan c).st = .stopping ∨ (s.chan c).queue = gone →
          (t.chan c).st = .idle ∧ (t.chan c).ctx = none ∧ (t.chan c).fetch = fetchEmptied (s.chan c).fetch ∧
          (t.chan c).active = (s.chan c).active ∧ (t.chan c).commitReq = (s.chan c).commitReq ∧
          (s.mask.getLsbD 1 = true → ∃ q ∈ t.events, q.src = .channel c ∧ q.kind = .queueEmpty)) ∧
        ((s.chan c).st = .stopping → (s.chan c).cfg.mode = .play →
          (t.chan c).queue = [] ∧ (t.chan c).cnt = counted ∧ t.events = (empty told).events ∧
          t.ltx = (freeCredits (.play c) (s.chan c).queue.length s).ltx ∧
          ∀ n, t.seg n = useWithout s (x.entry :: (s.chan c).queue) n) ∧
        ((s.chan c).st ≠ .stopping → (s.chan c).queue = gone →
          (t.chan c).queue = [] ∧ (t.chan c).cnt = withRejections counted gone.length ∧
          t.events = (empty (discardsTold c gone told)).events ∧
          t.ltx = (freeCredits (.play c) gone.length s).ltx ∧
          ∀ n, t.seg n = useWithout s (x.entry :: gone) n) ∧
        (∀ e rest p, (s.chan c).st = .running → (s.chan c).queue = gone ++ e :: rest → s.profile e.prof = some p →
          let l := (s.segOf e.seg).length
          let i := (e.start.map fun k => k.toNat).getD 0
          let first := if e.splice then (if i + ov < l then i + ov else l - 1) else i
          t.events = (discardsTold c gone told).events ∧
          t.ltx = (freeCredits (.play c) (gone.length + 1) s).ltx ∧
          (∀ n, t.seg n = useWithout s (x.entry :: gone) n) ∧
          t.chan c = { s.chan c with
            queue := rest, cnt := withRejections counted gone.length, stream := none, clippedFlag := false,
            subst := (materialGivenUp false (s.chan c)).subst, port := { (s.chan c).port with marker := false },
            active := if (s.chan c).commitReq then (s.chan c).pendCurve else (s.chan c).active, commitReq := false,
            fetch := (t.chan c).fetch,
            ctx := some
              { entry := e, snap := p, i := first, f := if e.splice then f else 0, passes := e.passes,
                marker := if e.mark then e.markWidth else 0, done := none } } ∧
          FetchTakesOver s (s.chan c) (decide (gone ≠ [])) e rest first (t.chan c).fetch)

/-- TRIG_RISING_EDGE and TRIGGER_CELL (R42): a complete TRIGGER group becomes start-pending; each member of an incomplete
one counts and posts TRIGGER_MISSED with the group and the trigger's origin; other groups are left alone.
The bits of an event's detail that 12.2 does not name are 0
by the model's choice (log 40). -/
def Obligations.TriggersReleaseOrMiss : Prop :=
  ∀ (cell : Bool) (s : State), s.resetLow = false → (cell = true → s.lrx.deln = .sync) →
    (∀ c g k x y, s.groups.get g = some x → s.groups.get k = some y → x.members.get c = true →
      y.members.get c = true → g = k) →
    let i := if cell then Instr.triggerCell else .trigRisingEdge
    let s0 := if cell then syncGood s else s
    let missed : Fin 4 → Chan → Prop := fun g c => ∃ x, s.groups.get g = some x ∧ x.mode = .trigger ∧
      x.pending = false ∧ x.complete = false ∧ x.members.get c = true
    ∃ t, exec i s = .next t ∧ t = { s0 with groups := t.groups, chans := t.chans, events := t.events } ∧
      (∀ g, t.groups.get g = (s.groups.get g).map fun x =>
        if x.mode = .trigger ∧ x.complete = true then { x with pending := true } else x) ∧
      (∀ c, (∀ g, ¬missed g c) → t.chan c = s.chan c) ∧
      (∀ g c, missed g c →
        t.chan c = { s.chan c with
          cnt := { (s.chan c).cnt with trigMisses := satInc (s.chan c).cnt.trigMisses } } ∧
        (s.mask.getLsbD 5 = true → ∃ q ∈ t.events, q.src = .channel c ∧ q.kind = .triggerMissed ∧
          ((∀ p ∈ s.events, ¬(p.src = .channel c ∧ p.kind = .triggerMissed)) → q.count = 1 ∧
            q.detail = BitVec.ofNat 32 (g.val + if cell then 256 else 0)))) ∧
      ((∀ g c, ¬missed g c) → t.events = s.events)

/-- A sample-clock period in LOCKED, as START_TICK or as the step with no command waiting (R40, R44, R71, R177). Every
start-pending group is removed; its ARMED members go RUNNING at an output tick of their own, their dividers restarted. At
every other channel the divider count rises by 1, and at the divider in force the period is an output tick: the count
begins anew with the divider as stored. A tick delivers the code of its pair, of the window or of the intake, or the idle
or park code. That START_TICK is a whole period, with a step on an empty queue one too (log 2), that it changes nothing
without a LOCKED clock or a start-pending group (log 3), and the order of the channels within a period (log 13) are the
model's choices. -/
def Obligations.StartTickStartsPendingGroups : Prop :=
  ∀ s : State, s.resetLow = false →
    let pending : Prop := ∃ g x, s.groups.get g = some x ∧ x.pending = true
    let starts : Chan → Prop := fun c => ∃ g x, s.groups.get g = some x ∧ x.pending = true ∧ x.members.get c = true
    (s.ckc.st ≠ .locked ∨ ¬pending → exec .startTick s = .next s) ∧
    (s.ckc.st = .locked → (∀ c, InOneGroup s c) →
      ∃ t, (pending → exec .startTick s = .next t) ∧ (s.pending = [] → step s = .next t) ∧
        t = { s with
          chans := t.chans, groups := t.groups, segs := t.segs, events := t.events,
          ltx := { s.ltx with freed := t.ltx.freed }, store := { s.store with banks := t.store.banks } } ∧
        (∀ g, t.groups.get g = match s.groups.get g with
          | some x => if x.pending then none else some x
          | none => none) ∧
        ∀ c,
          let ch := s.chan c
          (starts c → ch.st ≠ .armed →
            t.chan c = { ch with fetch := { ch.fetch with outs := (t.chan c).fetch.outs } }) ∧
          (¬starts c → ch.divCount + 1 < ch.divNow →
            t.chan c = { ch with
              divCount := ch.divCount + 1, fetch := { ch.fetch with outs := (t.chan c).fetch.outs } }) ∧
          (endWaits s c = false → (starts c ∧ ch.st = .armed) ∨ (¬starts c ∧ ch.divNow ≤ ch.divCount + 1) →
            let plays := starts c ∨ ch.st = .running ∨ ch.st = .stopping
            (t.chan c).divCount = 0 ∧ (t.chan c).divNow = ch.cfg.divider.toNat ∧ (t.chan c).cfg = ch.cfg ∧
            (t.chan c).queue = ch.queue ∧
            (¬plays →
              let v := if ch.st = .halted ∨ ch.cfg.idle = .park then ch.cfg.park else ch.held
              t.chan c = { ch with
                held := v, port := { code := v + 0x8000, marker := false }, divCount := 0,
                divNow := ch.cfg.divider.toNat, fetch := { ch.fetch with outs := (t.chan c).fetch.outs } }) ∧
            (∀ k y0 y1, plays → ch.ctx = some k → windowWord ch.fetch 0 = some y0 → windowWord ch.fetch 1 = some y1 →
              k.i + 1 < (s.segOf k.entry.seg).length →
              let r := shape k.snap ch.active ch.cfg.lo.toInt ch.cfg.hi.toInt y0.toInt y1.toInt k.f
              (t.chan c).st = (if ch.st = .armed then .running else ch.st) ∧
              (t.chan c).port = { code := BitVec.ofInt 16 r.out + 0x8000, marker := decide (k.marker ≠ 0) }) ∧
            (∀ x h rest, plays → ch.ctx = none → ch.stream = some x → ch.intake = h :: rest → x.i + 1 < 16 →
              let y : Nat → Int := fun k => (h.data.extractLsb' (240 - 16 * k) 16).toInt
              let r := shape x.snap ch.active ch.cfg.lo.toInt ch.cfg.hi.toInt (y x.i) (y (x.i + 1)) x.f
              let n := x.i + x.incI.toNat + (x.f.toNat + x.incF.toNat) / 2 ^ 32
              (∀ e, x.endPos = some e → x.i + 1 < e) →
              (t.chan c).port = { code := BitVec.ofInt 16 r.out + 0x8000, marker := false } ∧
              (n < 16 → (∀ e, x.endPos = some e → n < e) →
                (t.chan c).st = (if ch.st = .armed then .running else ch.st) ∧
                (t.chan c).stream = some { x with i := n, f := x.f + x.incF } ∧ (t.chan c).intake = ch.intake))))

/-- CLOCK_QUALIFIED_START and CLOCK_LOCK (R176, R177, R179): the two changes of state with CLOCK_STATE, the dividers set
so that the next period is a tick of every channel, and a waiting standby exit completed, its OP_DONE behind CLOCK_STATE by
the model's choice (log 13), with the channels otherwise as before but for the grants that the arbiters then make. That CLOCK_LOCK
locks in LOCKING whatever the count has reached is the model's choice (log 2). In other states they change nothing (log 3). A step with no command waiting is a period by the
model's choice (log 2): in LOCKING the lock count rises by 1, and at 4096 the clock is LOCKED as by CLOCK_LOCK; in NO_CLOCK
nothing changes.
The bits of an event's detail that 12.2 does not name are 0
by the model's choice (log 40). -/
def Obligations.ClockGainsItsStates : Prop :=
  ∀ s : State, s.resetLow = false →
    let held : State := { s with
      ckc := { st := .locked, lockCount := 4096 },
      chans := s.chans.map fun ch => { ch with divCount := ch.cfg.divider.toNat - 1, divNow := ch.cfg.divider.toNat } }
    (s.ckc.st = .noClock → exec .clockQualifiedStart s = .next (post .clock .clockState 1 .ok
      { s with ckc := { st := .locking, lockCount := 1 } })) ∧
    (s.ckc.st ≠ .noClock → exec .clockQualifiedStart s = .next s) ∧
    (s.ckc.st ≠ .locking → exec .clockLock s = .next s) ∧
    (s.ckc.st = .locking → s.part ≠ .exiting →
      exec .clockLock s = .next (post .clock .clockState 2 .ok held)) ∧
    (∀ tag, s.ckc.st = .locking → s.part = .exiting → s.slots.standbyExit = some tag →
      ∃ t, exec .clockLock s = .next t ∧
        t = { held with
          part := .active, slots := { s.slots with standbyExit := none }, chans := t.chans,
          events := (post .standbyExit .opDone (tag.setWidth 32) .ok (post .clock .clockState 2 .ok s)).events,
          store := { s.store with banks := t.store.banks } } ∧
        (∀ c, OnlyGrants (held.chan c) (t.chan c)) ∧
        ∀ b, (s.bank b).ctrl = .selfRefresh → (t.bank b).ctrl ≠ .selfRefresh ∧ (t.bank b).debt = 0) ∧
    (s.pending = [] →
      (s.ckc.st = .noClock → step s = .next s) ∧
      (s.ckc.st = .locking → s.ckc.lockCount + 1 < 4096 →
        step s = .next { s with ckc := { st := .locking, lockCount := s.ckc.lockCount + 1 } }) ∧
      (s.ckc.st = .locking → 4096 ≤ s.ckc.lockCount + 1 → step s = exec .clockLock s))

/-- CLOCK_LOSS (R31, R41, R68, R75, R107, R176): from LOCKING and from LOCKED the clock is NO_CLOCK with its lock count 0
(log 18), every channel in PRIMING, ARMED, RUNNING or STOPPING is HALTED with its context and window given up, its segment's
use count lowered and its queue kept, and leaves its group; the cells without START at the head of its intake are dropped
NO_STREAM, each with its rejection and its credit, and the others kept; IDLE and HALTED channels keep everything.
Channels whose entries have ended are met as the completion actions leave them (R26), the lowest first by the model's choice
(log 13). That a halted channel's marker falls in the same act is
deduced (log 17), and that nothing happens in NO_CLOCK is the model's choice (log 3).
The bits of an event's detail that 12.2 does not name are 0
by the model's choice (log 40). -/
def Obligations.ClockLossHalts : Prop :=
  ∀ s : State, s.resetLow = false →
    (s.ckc.st = .noClock → exec .clockLoss s = .next s) ∧
    (s.ckc.st ≠ .noClock → ∀ c : Chan, (∀ d : Chan, d < c → endWaits s d = false) →
      ∀ u, exec (.entryCompletion c) s = .next u → exec .clockLoss s = exec .clockLoss u) ∧
    (s.ckc.st ≠ .noClock → (∀ c, endWaits s c = false) →
      ∃ t, exec .clockLoss s = .next t ∧
        t = { s with
          ckc := { st := .noClock, lockCount := 0 }, chans := t.chans, groups := t.groups, segs := t.segs,
          events := t.events, ltx := { s.ltx with freed := t.ltx.freed } } ∧
        (s.mask.getLsbD 15 = true → ∃ q ∈ t.events, q.src = .clock ∧ q.kind = .clockState) ∧
        let halts : Chan → Bool := fun c => decide ((s.chan c).st ≠ .idle ∧ (s.chan c).st ≠ .halted)
        let dropped : Chan → List StreamCell := fun c => (s.chan c).intake.takeWhile fun z => !z.start
        (∀ n, t.seg n = useWithout s
          (four.flatMap fun c => if halts c then ((s.chan c).ctx.map fun x => x.entry).toList else []) n) ∧
        (∀ k, t.ltx.freed.get k = s.ltx.freed.get k + BitVec.ofNat 8 (match k with
          | .stream c => if halts c then (dropped c).length else 0
          | _ => 0)) ∧
        ((∀ c, halts c = true → InOneGroup s c) → GroupsLeft halts s t) ∧
        ∀ c,
          (halts c = false → t.chan c = s.chan c) ∧
          (halts c = true →
            t.chan c = { s.chan c with
              st := .halted, ctx := none, stream := none, intake := (s.chan c).intake.drop (dropped c).length,
              cnt := withRejections (s.chan c).cnt (dropped c).length,
              port := { (s.chan c).port with marker := false }, fetch := fetchEmptied (s.chan c).fetch } ∧
            (s.mask.getLsbD 6 = true → ∃ q ∈ t.events, q.src = .channel c ∧ q.kind = .halted) ∧
            (dropped c ≠ [] → s.mask.getLsbD 4 = true →
              ∃ q ∈ t.events, q.src = .channel c ∧ q.kind = .playReject ∧
                ((∀ p ∈ s.events, ¬(p.src = .channel c ∧ p.kind = .playReject)) →
                  q.detail = BitVec.ofNat 8 25 ++ 0#24))))

/-! ### Events at the store (06, 07) -/

/-- REFRESH_INTERVAL_EXPIRY (R99, R100, R103, R119, R120): at every bank not in SELF_REFRESH a debt below 8 rises by 1, and a debt of
8 is an overrun: counted, the store suspect, REFRESH_OVERRUN posted. ACTIVATION_COMPLETE, CLOSE_COMPLETE and
REFRESH_COMPLETE (R95, R96, R120, R121): the granted burst begins; a close goes on to the work's activation, in the row
that the remap table then gives, or to its refresh, or ends CLOSED, or in SELF_REFRESH outside ACTIVE; a refresh moves the
pointer on and lowers the debt. At the bank that so becomes CLOSED and free the arbiter grants by its classes, the round
robin of the fetch units and the order of arrival, and the burst granted is activated in the spare of an ACTIVE link of its
row, or in the row itself. A refresh that the expiry asks for at a free bank with nothing else waiting is granted at once: a
CLOSED bank is REFRESHING, an OPEN one CLOSING first. No event at one bank changes another bank. That an event changes nothing
at a bank in a state in which it cannot arise is the model's choice (log 3). -/
def Obligations.RefreshAndBankEvents : Prop :=
  (∀ s : State, s.resetLow = false →
     let overran : BankNo → Prop := fun b => (s.bank b).ctrl ≠ .selfRefresh ∧ 8 ≤ (s.bank b).debt
     ∃ t, exec .refreshIntervalExpiry s = .next t ∧
       t = { s with
         chans := t.chans, events := t.events,
         store := { s.store with banks := t.store.banks, suspect := t.store.suspect } } ∧
       (∀ c, t.chan c = { s.chan c with fetch := { (s.chan c).fetch with outs := (t.chan c).fetch.outs } }) ∧
       (t.store.suspect = true ↔ s.store.suspect = true ∨ ∃ b, overran b) ∧
       ((∀ b, ¬overran b) → t.events = s.events) ∧
       (∀ b, overran b → s.mask.getLsbD 9 = true → ∃ q ∈ t.events, q.src = .store ∧ q.kind = .refreshOverrun) ∧
       ∀ b,
         ((s.bank b).ctrl = .selfRefresh → t.bank b = s.bank b) ∧
         (overran b → t.bank b = { s.bank b with overruns := satInc (s.bank b).overruns }) ∧
         ((s.bank b).ctrl ≠ .selfRefresh → (s.bank b).debt < 8 →
           (t.bank b).debt = (s.bank b).debt + 1 ∧ (t.bank b).overruns = (s.bank b).overruns ∧
           (t.bank b).ptr = (s.bank b).ptr ∧
           ((s.bank b).work ≠ none → t.bank b = { s.bank b with debt := (s.bank b).debt + 1 }) ∧
           (∀ next, ((s.bank b).ctrl = .closed ∧ next = .refreshing) ∨
               ((∃ row, (s.bank b).ctrl = .opened row) ∧ next = .closing) →
             (s.bank b).work = none → (s.bank b).waiting = [] → s.part = .active →
             (∀ c, waitingRec b (s.chan c).fetch.outs = none) →
             t.bank b = { s.bank b with
               debt := (s.bank b).debt + 1, ctrl := next,
               work := some { req := .refresh, closePage := decide (s.store.policy = .closePage),
                              closeAfter := false } }))) ∧
  (∀ (b : BankNo) (s : State), s.resetLow = false →
     let k := s.bank b
     let quiet := k.waiting = [] ∧ ∀ c, waitingRec b (s.chan c).fetch.outs = none
     let put : Bank → State := fun x => s.setBank b x
     let addr : Req → Option Nat := fun r => match r with
       | .fetch _ a => some a
       | .loadWrite a => some a
       | .closeRead a => some a
       | .mgmtRead a => some a
       | .retireRead a => some a
       | .initWrite a => some a
       | _ => none
     (∀ row, k.ctrl = .opening row → exec (.activationComplete b) s = .next (put { k with ctrl := .opened row })) ∧
     ((∀ row, k.ctrl ≠ .opening row) → exec (.activationComplete b) s = .next s) ∧
     (k.ctrl ≠ .closing → exec (.closeComplete b) s = .next s) ∧
     (k.ctrl = .closing →
       (∀ w, k.work = some w → w.req = .refresh →
         exec (.closeComplete b) s = .next (put { k with ctrl := .refreshing })) ∧
       (∀ w row col, k.work = some w → w.req = .retireWrite row col →
         exec (.closeComplete b) s = .next (put { k with ctrl := .opening row })) ∧
       (∀ w a, k.work = some w → addr w.req = some a →
         ((∀ l ∈ s.store.links, l.bank = b → l.row = a / 1024 → l.state ≠ .active) →
           exec (.closeComplete b) s = .next (put { k with ctrl := .opening (a / 1024) })) ∧
         (∀ l ∈ s.store.links, l.bank = b → l.row = a / 1024 → l.state = .active →
           (∀ m ∈ s.store.links, m.bank = b → m.row = a / 1024 → m = l) →
           exec (.closeComplete b) s = .next (put { k with ctrl := .opening (4096 + l.spare) }))) ∧
       (k.work = none → s.part ≠ .active →
         exec (.closeComplete b) s = .next (put { k with ctrl := .selfRefresh, debt := 0 })) ∧
       (k.work = none → s.part = .active →
         ∃ t, exec (.closeComplete b) s = .next t ∧ BanksOnly s t ∧ (∀ d, d ≠ b → t.bank d = s.bank d) ∧
           (t.bank b).debt = k.debt ∧ (t.bank b).ptr = k.ptr ∧ ArbiterChooses s b .closed k.debt t ∧
           (quiet → k.debt = 0 → t = put { k with ctrl := .closed }))) ∧
     (k.ctrl ≠ .refreshing → exec (.refreshComplete b) s = .next s) ∧
     (k.ctrl = .refreshing → k.ptr ≤ 4111 →
       (s.part ≠ .active → exec (.refreshComplete b) s = .next (put
         { k with ctrl := .selfRefresh, work := none, debt := 0, ptr := (k.ptr + 1) % 4112 })) ∧
       (s.part = .active →
         ∃ t, exec (.refreshComplete b) s = .next t ∧ BanksOnly s t ∧ (∀ d, d ≠ b → t.bank d = s.bank d) ∧
           (t.bank b).debt = k.debt - 1 ∧ (t.bank b).ptr = (k.ptr + 1) % 4112 ∧
           (t.bank b).overruns = k.overruns ∧ ArbiterChooses s b .closed (k.debt - 1) t ∧
           (quiet → k.debt ≤ 1 → (t.bank b).ctrl = .closed ∧ (t.bank b).work = none) ∧
           (quiet → 2 ≤ k.debt → (t.bank b).ctrl = .refreshing))))

/-- FETCH_BURST_COMPLETE (R30, R40, R104 to R107, R122 to R126, R128 to R130): the kept words of the burst enter the window
in order with the record's tag, a word of an UNCORRECTABLE group as the last good word before it; every outcome is counted;
a discarded burst places nothing. The store's words and every other group stay as they are. A PRIMING channel whose window
is primed by it becomes ARMED, and its group may become complete; where the window has room the Fetch Unit goes on: the next
burst is asked for, and behind the last pass of the active entry the cursor moves to the NEXT entry and bursts of it follow.
Then, where no close follows the burst, the bank decides among what waits by now, the burst just asked for included by the
model's choice (log 12), with its row still open: a burst in that row begins at once, and for another row or a refresh the
bank is CLOSING first (R95 to R97, R100).
That a channel's uncorrectable counter rises for every bad group of the burst, of which it keeps a word or not, and which
words count as behind the phase, is deduced (log 30, log 16); that this goes before the completion actions of an ended
entry is the model's choice (log 14). Last, bursts that complete out of order: behind an earlier record the words wait in their record;
with the earlier burst's words they enter behind them.
The bits of an event's detail that 12.2 does not name are 0
by the model's choice (log 40). -/
def Obligations.FetchBurstPlacesItsWords : Prop :=
  (∀ (b : BankNo) (flips : Flips) (c : Chan) (row : Nat) (w : Work) (r : FetchRec) (rest : List FetchRec)
    (d : Nat → BitVec 64) (old : Nat → BitVec 72) (s : State), s.resetLow = false →
    (s.bank b).ctrl = .opened row → (s.bank b).work = some w → w.req = .fetch c r.addr →
    (s.chan c).fetch.outs = r :: rest → r.st = .granted → bankOf r.addr = b →
    let key : Nat → Nat := fun k => groupKey b row (r.addr % 256 + 4 * k)
    let wrong : Nat → BitVec 72 := fun k => old k ^^^ flips.extractLsb' (72 * k) 72
    (∀ k, k < 4 → tableGet s.store.mem (key k) = some { data := d k, wrong := old k } ∧ wrongBits (wrong k) ≤ 2) →
    let bad : Nat := (List.range 4).countP fun k => decide (wrongBits (wrong k) = 2)
    let corrected : Nat := (List.range 4).countP fun k => decide (wrongBits (wrong k) = 1)
    (∀ x ∈ rest, ∀ ws, x.st ≠ .returned ws) →
    ∃ t, exec (.fetchBurstComplete b flips) s = .next t ∧
      t = { s with
        chans := t.chans, groups := t.groups, events := t.events,
        store := { s.store with
          mem := t.store.mem, banks := t.store.banks, corrected := t.store.corrected, weak := t.store.weak,
          fault := t.store.fault } } ∧
      (∀ e, e ≠ c → t.chan e = { s.chan e with fetch := { (s.chan e).fetch with outs := (t.chan e).fetch.outs } }) ∧
      (∀ n, (∀ k, k < 4 → n ≠ key k) → tableGet t.store.mem n = tableGet s.store.mem n) ∧
      (∀ k, k < 4 → tableGet t.store.mem (key k) = some { data := d k, wrong := wrong k }) ∧
      OutcomesRecorded (.fetch c) b row r.addr wrong s t ∧
      t.store.corrected = satInc^[corrected] s.store.corrected ∧
      t.store.fault.total = satInc^[bad] s.store.fault.total ∧
      (bad = 0 → t.store.fault = s.store.fault) ∧
      (0 < bad → t.store.fault.present = true ∧ t.store.fault.bank = b ∧ t.store.fault.row = row ∧
        t.store.fault.req = .fetch c ∧
        (s.mask.getLsbD 8 = true → ∃ q ∈ t.events, q.src = .store ∧ q.kind = .eccUncorrectable)) ∧
      (bad = 0 → corrected = 0 → t.events = s.events ∧ t.store.weak = s.store.weak) ∧
      (w.closePage = true ∨ w.closeAfter = true ∨ s.part ≠ .active →
        (t.bank b).ctrl = .closing ∧ (t.bank b).work = none) ∧
      (r.discard = true → (t.chan c).fetch.window = (s.chan c).fetch.window ∧ (t.chan c).cnt = (s.chan c).cnt ∧
        (t.chan c).subst = (s.chan c).subst) ∧
      (r.discard = false →
        (t.chan c).cnt = { (s.chan c).cnt with
          uncorrectable := satInc^[bad] (s.chan c).cnt.uncorrectable } ∧
        ∃ placed : List FetchWord, (t.chan c).fetch.window = (s.chan c).fetch.window ++ placed ∧
          placed.length = r.last % 16 + 1 - r.first % 16 ∧
          (t.chan c).subst = ((placed.getLast?).map fun x => x.val).getD (s.chan c).subst ∧
          ∀ j x, placed[j]? = some x →
            let m := r.first % 16 + j
            x.next = r.next ∧
            (wrongBits (wrong (m / 4)) ≤ 1 → x.val = (d (m / 4)).extractLsb' (48 - 16 * (m % 4)) 16) ∧
            (wrongBits (wrong (m / 4)) = 2 →
              x.val = if j = 0 then (s.chan c).subst
                else ((placed[j - 1]?).map fun y => y.val).getD 0)) ∧
      ((s.chan c).st ≠ .priming → (t.chan c).st = (s.chan c).st ∧ t.groups = s.groups) ∧
      (∀ x, (s.chan c).st = .priming → (s.chan c).cfg.mode = .play → (s.chan c).ctx = some x → InOneGroup s c →
        let seg := s.segOf x.entry.seg
        let held := (t.chan c).fetch.window.countP fun y => !y.next
        let order := seg.length - x.entry.startIdx + (x.entry.passes.toNat - 1) * (seg.length - seg.loopStart)
        if 32 ≤ held ∨ (x.entry.passes ≠ 0 ∧ order ≤ held) then (t.chan c).st = .armed ∧ ArmingReported c s t
        else (t.chan c).st = .priming ∧ t.groups = s.groups) ∧
      let late := if r.next = true ∨ r.discard = true then 0
        else min (s.chan c).fetch.owed (r.last % 16 + 1 - r.first % 16)
      let goesOn : Fetch → Prop := FetchGoesOn s (s.chan c).st ((s.chan c).ctx.map fun x => x.entry) (s.chan c).queue
        { window := (t.chan c).fetch.window, stale := (s.chan c).fetch.stale + late,
          owed := (s.chan c).fetch.owed - late, outs := rest, cursor := (s.chan c).fetch.cursor }
      goesOn (t.chan c).fetch ∧
      (w.closePage = false → w.closeAfter = false → s.part = .active →
        ∃ u : State, u.bank b = s.bank b ∧ u.store.links = s.store.links ∧ u.store.policy = s.store.policy ∧
          (∀ e, e ≠ c → OnlyGrants (s.chan e) (u.chan e)) ∧ goesOn (u.chan c).fetch ∧
          ArbiterChooses u b (.opened row) (s.bank b).debt t)) ∧
  ∀ (b : BankNo) (flips : Flips) (c : Chan) (row : Nat) (w : Work) (r y : FetchRec) (d : Nat → BitVec 64) (s : State),
    s.resetLow = false → (s.bank b).ctrl = .opened row → (s.bank b).work = some w → w.req = .fetch c r.addr →
    r.st = .granted → r.discard = false → bankOf r.addr = b →
    (∀ k, k < 4 → ∃ old, tableGet s.store.mem (groupKey b row (r.addr % 256 + 4 * k)) = some { data := d k, wrong := old } ∧
      wrongBits (old ^^^ flips.extractLsb' (72 * k) 72) ≤ 1) →
    let words : List Sample := (List.range (r.last % 16 + 1 - r.first % 16)).map fun j =>
      (d ((r.first % 16 + j) / 4)).extractLsb' (48 - 16 * ((r.first % 16 + j) % 4)) 16
    (bankOf y.addr ≠ b → (∀ ws, y.st ≠ .returned ws) → (s.chan c).fetch.outs = [y, r] →
      ∃ t, exec (.fetchBurstComplete b flips) s = .next t ∧ (t.chan c).fetch.window = (s.chan c).fetch.window ∧
        (t.chan c).fetch.outs = [y, { r with st := .returned (words.map fun v => (v, false)) }]) ∧
    (∀ ws, y.st = .returned ws → (∀ p ∈ ws, p.2 = false) → (s.chan c).fetch.outs = [r, y] →
      ∃ t, exec (.fetchBurstComplete b flips) s = .next t ∧
        (t.chan c).fetch.window = (s.chan c).fetch.window ++
          (words.map fun v => { val := v, next := r.next }) ++ ws.map fun p => { val := p.1, next := y.next })

/-- LOAD_WRITE_COMPLETE (R101, R110 to R112): the head cell's 16 words stand in the four groups of the burst position with
fresh check bits and no other group is touched; the cell leaves with its credit; then the next write is asked for, or the
window completes with OP_DONE(LOAD) and its close read, or, when it no longer accepts, closes with the reply of a waiting
LOAD_CLOSE, which is held where the reply queue is full (R160).
The bits of an event's detail that 12.2 does not name are 0
by the model's choice (log 40). -/
def Obligations.LoadWriteStoresItsCell : Prop :=
  ∀ (b : BankNo) (row addr : Nat) (k : Work) (w : LoadWindow) (head : Payload) (rest : List Payload) (s : State),
    s.resetLow = false → (s.bank b).ctrl = .opened row → (s.bank b).work = some k → k.req = .loadWrite addr →
    (∀ d x, (s.bank d).work = some x → x.req.isLoadWrite = true → d = b) →
    s.ldw.window = some w → s.ldw.buffer = head :: rest → s.cmdQ = [] →
    let key : Nat → Nat := fun g => groupKey b row (addr % 256 + 4 * g)
    ∃ t, exec .loadWriteComplete s = .next t ∧
      t = { s with
        chans := t.chans, ldw := t.ldw, mgu := t.mgu, events := t.events,
        ltx := { (freeCredits .load 1 s).ltx with replies := t.ltx.replies },
        store := { s.store with mem := t.store.mem, banks := t.store.banks } } ∧
      (∀ c, t.chan c = { s.chan c with fetch := { (s.chan c).fetch with outs := (t.chan c).fetch.outs } }) ∧
      (∀ g, g < 4 → tableGet t.store.mem (key g) =
        some { data := head.extractLsb' (192 - 64 * g) 64, wrong := 0 }) ∧
      (∀ n, (∀ g, g < 4 → n ≠ key g) → tableGet t.store.mem n = tableGet s.store.mem n) ∧
      t.ldw.buffer = rest ∧
      (w.accepting = true → w.written + 16 < w.length →
        t.ldw.window = some { w with written := w.written + 16, next := w.next + 16 } ∧ t.events = s.events ∧
        t.mgu = s.mgu ∧ t.ltx.replies = s.ltx.replies ∧
        (rest ≠ [] → Asked t (bankOf (w.next + 16)) (.loadWrite (w.next + 16)))) ∧
      (w.accepting = true → w.length ≤ w.written + 16 →
        t.ldw.window = none ∧ t.mgu = s.mgu ∧ t.ltx.replies = s.ltx.replies ∧
        Asked t (bankOf w.next) (.closeRead w.next) ∧
        t.events = (post .load .opDone (w.tag.setWidth 32) .ok s).events) ∧
      (w.accepting = false →
        t.ldw.window = none ∧ t.events = s.events ∧
        ((∀ tag, s.mgu ≠ .executing (.loadClose tag)) → t.mgu = s.mgu ∧ t.ltx.replies = s.ltx.replies) ∧
        (∀ tag, s.mgu = .executing (.loadClose tag) →
          let r : Reply := { op := 0x31, tag := tag, status := .ok, data := bytesOf 4 (w.written + 16) }
          (s.ltx.replies.length < 4 → t.mgu = .available ∧ t.ltx.replies = s.ltx.replies ++ [r]) ∧
          (4 ≤ s.ltx.replies.length → t.mgu = .replyHeld r ∧ t.ltx.replies = s.ltx.replies)))

/-- LOAD_CLOSE_READ_COMPLETE (R111, R122 to R126, R128, R129): its data goes nowhere and its outcomes are recorded in
column order, with the requester load-close: CORRECTED groups raise the corrected counter and the row's entry of the weak
row list; an UNCORRECTABLE group fills the fault record, posts ECC_UNCORRECTABLE and sets the entry's count to 255 with its
flag; CLEAN groups leave everything. A write that waited behind the close read is asked for. With none, the bank closes
after the burst, where the policy at its grant, a retire or the part's state demands it, or stays open and decides there and
then: a burst in the open row begins at once, and for another row or a refresh the bank is CLOSING first (R95 to R97, R100).
The bits of an event's detail that 12.2 does not name are 0
by the model's choice (log 40). -/
def Obligations.CloseReadRecordsItsOutcome : Prop :=
  ∀ (b : BankNo) (row addr : Nat) (k : Work) (flips : Flips) (d : Nat → BitVec 64) (old : Nat → BitVec 72) (s : State),
    s.resetLow = false → (s.bank b).ctrl = .opened row → (s.bank b).work = some k → k.req = .closeRead addr →
    (∀ e x, (s.bank e).work = some x → x.req.isCloseRead = true → e = b) →
    let key : Nat → Nat := fun g => groupKey b row (addr % 256 + 4 * g)
    let wrong : Nat → BitVec 72 := fun g => old g ^^^ flips.extractLsb' (72 * g) 72
    (∀ g, g < 4 → tableGet s.store.mem (key g) = some { data := d g, wrong := old g } ∧ wrongBits (wrong g) ≤ 2) →
    ∃ t, exec (.loadCloseReadComplete flips) s = .next t ∧
      t = { s with
        chans := t.chans, events := t.events,
        store := { s.store with
          mem := t.store.mem, banks := t.store.banks, corrected := t.store.corrected, weak := t.store.weak,
          fault := t.store.fault } } ∧
      (∀ c, t.chan c = { s.chan c with fetch := { (s.chan c).fetch with outs := (t.chan c).fetch.outs } }) ∧
      (∀ g, g < 4 → tableGet t.store.mem (key g) = some { data := d g, wrong := wrong g }) ∧
      (∀ n, (∀ g, g < 4 → n ≠ key g) → tableGet t.store.mem n = tableGet s.store.mem n) ∧
      (∀ w, s.ldw.window = some w → s.ldw.buffer ≠ [] → Asked t (bankOf w.next) (.loadWrite w.next)) ∧
      ((s.ldw.window = none ∨ s.ldw.buffer = []) →
        let closes := k.closePage = true ∨ k.closeAfter = true ∨ s.part ≠ .active
        (∀ e, e ≠ b → t.bank e = s.bank e) ∧
        (closes → t.bank b = { s.bank b with ctrl := .closing, work := none }) ∧
        (¬closes → ArbiterChooses s b (.opened row) (s.bank b).debt t)) ∧
      OutcomesRecorded .loadClose b row addr wrong s t ∧
      ((∀ g, g < 4 → wrongBits (wrong g) = 0) →
        t.store.corrected = s.store.corrected ∧ t.store.fault = s.store.fault ∧ t.store.weak = s.store.weak ∧
        t.events = s.events)

/-- STORE_READ_BURST_COMPLETE (R114, R122 to R126, R128, R129, 12.2): the outcomes are recorded; the words and the outcomes of the part of the burst that was asked for
are taken, corrected or as read; the second burst position is asked for, or the reply is composed with the read result,
the address and the words, and held where the reply queue is full (R160).
The bits of an event's detail that 12.2 does not name are 0
by the model's choice (log 40). -/
def Obligations.StoreReadTakesItsWords : Prop :=
  ∀ (b : BankNo) (row : Nat) (k : Work) (flips : Flips) (tag : BitVec 16) (a n burst : Nat) (words : List Sample)
    (outs : List Ecc) (d : Nat → BitVec 64) (old : Nat → BitVec 72) (s : State), s.resetLow = false →
    (s.bank b).ctrl = .opened row → (s.bank b).work = some k → k.req = .mgmtRead burst →
    (∀ e x, (s.bank e).work = some x → x.req.isMgmtRead = true → e = b) →
    s.mgu = .executing (.storeRead tag a n words outs burst) → s.cmdQ = [] →
    let key : Nat → Nat := fun g => groupKey b row (burst % 256 + 4 * g)
    let wrong : Nat → BitVec 72 := fun g => old g ^^^ flips.extractLsb' (72 * g) 72
    (∀ g, g < 4 → tableGet s.store.mem (key g) = some { data := d g, wrong := old g } ∧ wrongBits (wrong g) ≤ 2) →
    let given : Nat → BitVec 64 := fun g =>
      if wrongBits (wrong g) = 2 then d g ^^^ (wrong g).extractLsb' 0 64 else d g
    let outcome : Nat → Ecc := fun g =>
      if wrongBits (wrong g) = 0 then .clean else if wrongBits (wrong g) = 1 then .corrected else .uncorrectable
    let ws := words ++ ((List.range 16).filter fun m => decide (a ≤ burst + m ∧ burst + m < a + n)).map fun m =>
      (given (m / 4)).extractLsb' (48 - 16 * (m % 4)) 16
    let os := outs ++ ((List.range 4).filter fun g => decide (a < burst + 4 * g + 4 ∧ burst + 4 * g < a + n)).map outcome
    let result := 81 * (n - 1) + (os.zipIdx.map fun p => 3 ^ p.2 * eccNum p.1).sum
    ∃ t, exec (.storeReadBurstComplete flips) s = .next t ∧
      t = { s with
        chans := t.chans, events := t.events, mgu := t.mgu, ltx := { s.ltx with replies := t.ltx.replies },
        store := { s.store with
          mem := t.store.mem, banks := t.store.banks, corrected := t.store.corrected, weak := t.store.weak,
          fault := t.store.fault } } ∧
      (∀ c, t.chan c = { s.chan c with fetch := { (s.chan c).fetch with outs := (t.chan c).fetch.outs } }) ∧
      OutcomesRecorded .management b row burst wrong s t ∧
      (∀ g, g < 4 → tableGet t.store.mem (key g) = some { data := d g, wrong := wrong g }) ∧
      (∀ m, (∀ g, g < 4 → m ≠ key g) → tableGet t.store.mem m = tableGet s.store.mem m) ∧
      (burst + 16 < a + n → t.ltx.replies = s.ltx.replies ∧
        t.mgu = .executing (.storeRead tag a n ws os (burst + 16)) ∧
        Asked t (bankOf (burst + 16)) (.mgmtRead (burst + 16))) ∧
      (a + n ≤ burst + 16 →
        let r : Reply :=
          { op := 0x32, tag := tag, status := .ok,
            data := bytesOf 4 (result * 4194304 + a) ++ ws.flatMap fun x => bytesOf 2 x.toNat }
        (s.ltx.replies.length < 4 → t.mgu = .available ∧ t.ltx.replies = s.ltx.replies ++ [r]) ∧
        (4 ≤ s.ltx.replies.length → t.mgu = .replyHeld r ∧ t.ltx.replies = s.ltx.replies))

/-- RETIRE_COPY_READ_COMPLETE and RETIRE_COPY_WRITE_COMPLETE (R97, R122 to R126, R128, R129, R134 to R136): the outcomes
recorded and the words as they were delivered, then their write to the spare named directly, group by group with fresh
check bits; after column 240 the link serves the row, the old spare is DISCARDED, the weak entry goes, and OP_DONE(RETIRE)
carries the tag and the count. The completion demands a close of the old source, the logical row or the old spare: a bank
open on it closes, one open on the row just written is left as after any burst.
The bits of an event's detail that 12.2 does not name are 0
by the model's choice (log 40). -/
def Obligations.RetireCopiesItsRow : Prop :=
  ∀ (b : BankNo) (row : Nat) (k : Work) (flips : Flips) (r : Retire) (s : State), s.resetLow = false →
    (s.bank b).ctrl = .opened row → (s.bank b).work = some k → s.retire = some r → r.bank = b →
    (∀ e x, (s.bank e).work = some x → x.req.isRetireRead = true ∨ x.req.isRetireWrite = true → e = b) →
    (∀ (addr : Nat) (d : Nat → BitVec 64) (old : Nat → BitVec 72), k.req = .retireRead addr →
      let key : Nat → Nat := fun g => groupKey b row (addr % 256 + 4 * g)
      let wrong : Nat → BitVec 72 := fun g => old g ^^^ flips.extractLsb' (72 * g) 72
      (∀ g, g < 4 → tableGet s.store.mem (key g) = some { data := d g, wrong := old g } ∧ wrongBits (wrong g) ≤ 2) →
      ∃ t r1, exec (.retireCopyReadComplete flips) s = .next t ∧
        t = { s with
          chans := t.chans, events := t.events, retire := some r1,
          store := { s.store with
            mem := t.store.mem, banks := t.store.banks, corrected := t.store.corrected, weak := t.store.weak,
            fault := t.store.fault } } ∧
        (∀ c, t.chan c = { s.chan c with fetch := { (s.chan c).fetch with outs := (t.chan c).fetch.outs } }) ∧
        r1 = { r with
          words := r1.words,
          bad := r.bad + (List.range 4).countP fun g => decide (wrongBits (wrong g) = 2) } ∧
        OutcomesRecorded .retireCopy b row addr wrong s t ∧ (∀ e, e ≠ b → t.bank e = s.bank e) ∧
        (∀ g, g < 4 → r1.words.extractLsb' (192 - 64 * g) 64 =
          if wrongBits (wrong g) = 2 then d g ^^^ (wrong g).extractLsb' 0 64 else d g) ∧
        Asked t b (.retireWrite (4096 + r.spare) (16 * r.pos))) ∧
    (∀ col, k.req = .retireWrite row col →
      let key : Nat → Nat := fun g => groupKey b row (col + 4 * g)
      ∃ t, exec .retireCopyWriteComplete s = .next t ∧
        t = { s with
          chans := t.chans, events := t.events, retire := t.retire, slots := t.slots,
          store := { s.store with
            mem := t.store.mem, banks := t.store.banks, links := t.store.links, weak := t.store.weak,
            spares := t.store.spares } } ∧
        (∀ c, t.chan c = { s.chan c with fetch := { (s.chan c).fetch with outs := (t.chan c).fetch.outs } }) ∧
        (∀ g, g < 4 → tableGet t.store.mem (key g) =
          some { data := r.words.extractLsb' (192 - 64 * g) 64, wrong := 0 }) ∧
        (∀ e, e ≠ b → t.bank e = s.bank e) ∧
        (∀ n, (∀ g, g < 4 → n ≠ key g) → tableGet t.store.mem n = tableGet s.store.mem n) ∧
        (r.pos < 15 →
          t.retire = some { r with pos := r.pos + 1 } ∧ t.slots = s.slots ∧ t.events = s.events ∧
          t.store.links = s.store.links ∧ t.store.weak = s.store.weak ∧ t.store.spares = s.store.spares ∧
          Asked t b (.retireRead (rowBase b r.row + 16 * (r.pos + 1)))) ∧
        (∀ l tag, r.pos = 15 → s.slots.retire = some tag → l ∈ s.store.links → l.bank = b → l.row = r.row →
          (∀ m ∈ s.store.links, m.bank = b → m.row = r.row → m = l) →
          t.retire = none ∧ t.slots = { s.slots with retire := none } ∧
          t.events = (post .retire .opDone (0#9 ++ BitVec.ofNat 7 r.bad ++ tag) .ok s).events ∧
          t.store.weak = (s.store.weak.filter fun x => !decide (x.bank = b ∧ x.row = r.row)) ∧
          t.store.links = (s.store.links.map fun m => if m = l then
            { l with spare := l.target.getD l.spare, target := none, origin := .user, state := .active } else m) ∧
          t.store.spares = (if l.target.isSome then
            s.store.spares.set b ((s.store.spares.get b).set l.spare .discarded) else s.store.spares) ∧
          let source := if l.target.isSome then 4096 + l.spare else r.row
          let closes := k.closePage = true ∨ k.closeAfter = true ∨ s.part ≠ .active ∨ row = source
          (closes → t.bank b = { s.bank b with ctrl := .closing, work := none }) ∧
          (¬closes → (s.bank b).waiting = [] → (s.bank b).debt = 0 →
            (∀ c, waitingRec b (s.chan c).fetch.outs = none) → t.bank b = { s.bank b with work := none })))

/-- INIT_WRITE_COMPLETE (R139, R140): the 16 words are zero with fresh check bits and no other group is touched; the
bank's walk moves on to the next burst position, and at the end of the last bank's walk the store is READY and no longer
suspect, the weak row list is empty, the slot is IDLE and OP_DONE(STORE_INIT) is posted with the tag.
The bits of an event's detail that 12.2 does not name are 0
by the model's choice (log 40). -/
def Obligations.InitWriteClearsAndMovesOn : Prop :=
  ∀ (b : BankNo) (row addr : Nat) (k : Work) (walk : Quad Nat) (tag : BitVec 16) (s : State), s.resetLow = false →
    (s.bank b).ctrl = .opened row → (s.bank b).work = some k → k.req = .initWrite addr → s.init = some walk →
    s.slots.storeInit = some tag →
    let key : Nat → Nat := fun g => groupKey b row (addr % 256 + 4 * g)
    let n := walk.get b + 1
    ∃ t, exec (.initWriteComplete b) s = .next t ∧
      t = { s with
        chans := t.chans, events := t.events, init := t.init, slots := t.slots,
        store := { s.store with
          mem := t.store.mem, banks := t.store.banks, state := t.store.state, suspect := t.store.suspect,
          weak := t.store.weak } } ∧
      (∀ c, t.chan c = { s.chan c with fetch := { (s.chan c).fetch with outs := (t.chan c).fetch.outs } }) ∧
      (∀ d, d ≠ b → t.bank d = s.bank d) ∧
      (∀ g, g < 4 → tableGet t.store.mem (key g) = some { data := 0, wrong := 0 }) ∧
      (∀ m, (∀ g, g < 4 → m ≠ key g) → tableGet t.store.mem m = tableGet s.store.mem m) ∧
      (n < 65536 ∨ (∃ d, d ≠ b ∧ walk.get d < 65536) →
        t.init = some (walk.set b n) ∧ t.slots = s.slots ∧ t.events = s.events ∧ t.store.state = s.store.state ∧
        t.store.suspect = s.store.suspect ∧ t.store.weak = s.store.weak ∧
        (n < 65536 → Asked t b (.initWrite (n / 16 * 1024 + b.val * 256 + 16 * (n % 16))))) ∧
      (65536 ≤ n → (∀ d, d ≠ b → 65536 ≤ walk.get d) →
        t.init = none ∧ t.slots = { s.slots with storeInit := none } ∧ t.store.state = .ready ∧
        t.store.suspect = false ∧ t.store.weak = [] ∧
        t.events = (post .storeInit .opDone (tag.setWidth 32) .ok s).events)

/-! ### Resets and start-up (11) -/

/-- POWER_ON and PIN_RESET_RELEASE (R37, R79, R84, R91, R94, R98, R131, R154, R155, R180, R181, R184): every block at its
power-on value, or its pin-reset value with what a pin reset keeps; the page states read from the marks; the factory curves
of a good page 1, or the identity curve and the calibration fault; and the first upstream cell, fill with the credit report
of STREAM0. At power-on a good page 0 gives its links in the order listed, 8 at most, without those out of range and those
whose row or spare an earlier one has taken; any other page 0 gives none; a spare is LINKED if a link names it and FREE if
not. The model's choices in it: PIN_RESET_RELEASE with RESETN high changes nothing (log 3), the divider counter's first
values (log 19), the line (log 20), that the commands that wait and the numbering of free values stay, the power-on
values of what a cut retire leaves (log 28), which bytes an interrupted page program leaves (R91, log 26), and that at a pin
reset, which puts the threshold back to 8 (R117), the weak row list keeps its flags as they are (R125, log 41). -/
def Obligations.ResetsGiveTheirValues : Prop :=
  ∀ (reached : Nat) (faults : Page) (took : Bool) (s : State),
    let curves : State → Prop := fun t =>
      t.calFault = !(decide (t.pageState 1 = .programmed) && pageGood (t.page 1)) ∧
      ∀ c : Chan, t.chan c = { channelReset [] with active := (t.chan c).active, pendCurve := (t.chan c).active } ∧
        (t.calFault = true → (t.chan c).active = identityCurve) ∧
        (t.calFault = false → (t.chan c).active.length = 33 ∧ ∀ j, j < 33 → ((t.chan c).active.getD j 0).toInt =
          max (-131072) (min 131071 ((t.page 1).extractLsb' (8 * (509 - (99 * c.val + 3 * j))) 24).toInt))
    let marks : State → Prop := fun t => ∀ p, p < 8 → t.cal.written.length = 8 → t.cal.verified.length = 8 →
      t.pageState p =
        (if t.cal.written.getD p false = false ∧ t.cal.verified.getD p false = false then PageState.blank
         else if t.cal.written.getD p false = true ∧ t.cal.verified.getD p false = true then .programmed
         else .defective) ∧
      t.cal.lock = t.cal.lockMark
    let line : State → Prop := fun t => ∃ cell, t.ltx = { ltxReset with line := .cell cell, rot := 1 } ∧
      cellGood cell = true ∧ (cell.extractLsb' 300 4).toNat = 15 ∧ cell.extractLsb' 16 284 = 0
    (∃ t, exec (.powerOn reached faults took) s = .next t ∧ curves t ∧ marks t ∧ line t ∧ t.cal.job = none ∧
      t = { State.reset with
        pending := s.pending, free := s.free, cal := t.cal, calFault := t.calFault, chans := t.chans, ltx := t.ltx,
        store := { storeReset with links := t.store.links, spares := t.store.spares } } ∧
      (s.cal.job = none → t.cal.pages = s.cal.pages ∧ t.cal.written = s.cal.written ∧
        t.cal.verified = s.cal.verified ∧ t.cal.lockMark = s.cal.lockMark) ∧
      (s.cal.job = some .lock → t.cal.pages = s.cal.pages ∧ t.cal.written = s.cal.written ∧
        t.cal.verified = s.cal.verified ∧ t.cal.lockMark = (s.cal.lockMark || took)) ∧
      (∀ p image, s.cal.job = some (.program p image) → t.cal.written = s.cal.written ∧
        t.cal.verified = s.cal.verified ∧ t.cal.lockMark = s.cal.lockMark ∧ (∀ q, q ≠ p → t.page q = s.page q) ∧
        (p < 8 → s.cal.pages.length = 8 → ∀ k, k < 512 → (t.page p).extractLsb' (8 * (511 - k)) 8 =
          if k < reached then (image ^^^ faults).extractLsb' (8 * (511 - k)) 8 else 0xFF)) ∧
      (let byte : Nat → Nat := fun k => ((t.page 0).extractLsb' (8 * (511 - k)) 8).toNat
       let listed : List (Nat × Nat × Nat) := (List.range (min (byte 16) 8)).map fun k =>
         (byte (17 + 4 * k), 256 * byte (18 + 4 * k) + byte (19 + 4 * k), byte (20 + 4 * k))
       let takes : List (Nat × Nat × Nat) → Nat × Nat × Nat → List (Nat × Nat × Nat) := fun taken l =>
         if l.1 ≤ 3 ∧ l.2.1 ≤ 4095 ∧ l.2.2 ≤ 15 ∧ (∀ m ∈ taken, m.1 = l.1 → m.2.1 ≠ l.2.1 ∧ m.2.2 ≠ l.2.2) then
           taken ++ [l]
         else taken
       t.store.links.map (fun l => (l.bank.val, l.row, l.spare)) =
         (if t.pageState 0 = .programmed ∧ pageGood (t.page 0) = true then listed.foldl takes [] else [])) ∧
      (∀ l ∈ t.store.links, l.origin = .factory ∧ l.state = .active ∧ l.target = none) ∧
      (∀ b, (t.store.spares.get b).length = 16 ∧ ∀ k, k < 16 → (t.store.spares.get b)[k]? =
        some (if ∃ l ∈ t.store.links, l.bank = b ∧ l.spare = k then .linked else .free))) ∧
    (s.resetLow = false → exec .pinResetRelease s = .next s) ∧
    (s.resetLow = true → ∃ t, exec .pinResetRelease s = .next t ∧ curves t ∧ marks t ∧ line t ∧
      t = { State.reset with
        pending := s.pending, free := s.free, ltx := t.ltx, calFault := t.calFault, chans := t.chans,
        cal := { s.cal with states := t.cal.states, lock := t.cal.lock },
        store := { s.store with policy := .openPage, threshold := 8, banks := t.store.banks } } ∧
      ∀ b, t.bank b = { s.bank b with ctrl := .closed, work := none, waiting := [], debt := 0, rr := 3 })

/-- PIN_RESET_ASSERT and START_UP_END (R45, R91, R94, R98, R121, R131, R137, R140, R155, R180, R181): the ports show zero, the
line is held low, the banks refresh themselves, and the retire, the initialization, the calibration program and the
operation in progress are abandoned: the words of every write that a bank has granted become undefined, by deduction
whether or not its activation has completed (log 24), and no others; of a page in program the bytes reached hold the image
but for the bits that did not take and the others are erased, in rising order by deduction (log 26). While RESETN is low nothing else happens (log 4). At the end of start-up the MGU takes
the oldest cell that waits, and after it the others while it is AVAILABLE (R157). That START_UP_END after start-up changes
nothing is the model's choice (log 3). -/
def Obligations.PinResetHoldsThePart : Prop :=
  (∀ (reached : Nat) (faults : Page) (took : Bool) (s : State), s.resetLow = false →
    ∃ t, exec (.pinResetAssert reached faults took) s = .next t ∧
      t = { s with
        resetLow := true, chans := t.chans, ltx := { s.ltx with line := .low }, mgu := .available,
        slots := ⟨none, none, none, none⟩, retire := none, init := none, cal := t.cal,
        store := { s.store with
          mem := t.store.mem, banks := t.store.banks, links := t.store.links, spares := t.store.spares,
          state := if s.store.state = .initializing then .uninitialized else s.store.state } } ∧
      (∀ c, t.chan c = { s.chan c with port := { code := 0x8000, marker := false } }) ∧
      (∀ b, t.bank b = { s.bank b with ctrl := .selfRefresh, work := none, waiting := [], debt := 0, rr := 3 }) ∧
      ((∀ b w, (s.bank b).work = some w → w.req.isLoadWrite = false ∧ w.req.isRetireWrite = false ∧
          ∀ a, w.req ≠ .initWrite a) → t.store.mem = s.store.mem) ∧
      (let column : Req → Option Nat := fun r => match r with
         | .loadWrite a => some (a % 256)
         | .initWrite a => some (a % 256)
         | .retireWrite _ col => some col
         | _ => none
       let cut : BankNo → Nat → Prop := fun b n => ∃ w col g, (s.bank b).work = some w ∧ column w.req = some col ∧ g < 4 ∧
         n = groupKey b (match (s.bank b).ctrl with
           | .opened row => row
           | .opening row => row
           | _ => reqRow s b w.req) (col + 4 * g)
       tableWf s.store.mem = true →
         (∀ b n, cut b n → tableGet t.store.mem n = none) ∧
         ∀ n, (∀ b, ¬cut b n) → tableGet t.store.mem n = tableGet s.store.mem n) ∧
      (s.retire = none → t.store.links = s.store.links ∧ t.store.spares = s.store.spares) ∧
      (∀ r, s.retire = some r →
        t.store.links = ((s.store.links.filter fun l => decide (l.state = .active)).map fun l =>
          { l with target := none }) ∧
        t.store.spares = s.store.spares.set r.bank ((s.store.spares.get r.bank).set r.spare .free)) ∧
      (s.cal.job = none → t.cal = s.cal) ∧
      (s.cal.job = some .lock → t.cal = { s.cal with lockMark := s.cal.lockMark || took, job := none }) ∧
      (∀ p image, s.cal.job = some (.program p image) → t.cal = { s.cal with pages := t.cal.pages, job := none } ∧
        (∀ q, q ≠ p → t.page q = s.page q) ∧
        (p < 8 → s.cal.pages.length = 8 → ∀ k, k < 512 → (t.page p).extractLsb' (8 * (511 - k)) 8 =
          if k < reached then (image ^^^ faults).extractLsb' (8 * (511 - k)) 8 else 0xFF))) ∧
  (∀ (i : Instr) (s : State), s.resetLow = true → (∀ n f m, i ≠ .powerOn n f m) → i ≠ .pinResetRelease →
    exec i s = .next s) ∧
  (∀ s : State, s.resetLow = false →
    (s.startingUp = false → exec .startUpEnd s = .next s) ∧
    (s.startingUp = true → s.cmdQ = [] ∨ s.mgu ≠ .available →
      exec .startUpEnd s = .next { s with startingUp := false }) ∧
    (∀ cell rest, s.startingUp = true → s.mgu = .available → s.cmdQ = cell :: rest →
      exec .startUpEnd s = .next (drain rest.length (answerOp cell.tag (opCodeByte cell.op)
        (runOp cell (freeCredits .control 1 { s with startingUp := false, cmdQ := rest }))))))


end
end

