-- ==== Sys2Proof/Laws/State.lean ====
section
/-! SUPPORT. What each update of the state leaves in each field, and reading the part that was set. -/

namespace Sys2Proof

@[simp] theorem Quad.get_set_self {α : Type} (q : Quad α) (i : Fin 4) (x : α) : (q.set i x).get i = x := by
  rcases q with ⟨a0, a1, a2, a3⟩; fin_cases i <;> rfl

theorem Quad.get_set_of_ne {α : Type} (q : Quad α) {i j : Fin 4} (x : α) (h : j ≠ i) :
    (q.set i x).get j = q.get j := by
  rcases q with ⟨a0, a1, a2, a3⟩; fin_cases i <;> fin_cases j <;> first | rfl | exact absurd rfl h

@[simp] theorem Quad.get_fill {α : Type} (x : α) (i : Fin 4) : (Quad.fill x).get i = x := by fin_cases i <;> rfl

@[simp] theorem Quad.get_map {α β : Type} (f : α → β) (q : Quad α) (i : Fin 4) : (q.map f).get i = f (q.get i) := by
  rcases q with ⟨a0, a1, a2, a3⟩; fin_cases i <;> rfl

@[simp] theorem PerClass.get_set_self {α : Type} (p : PerClass α) (k : CreditClass) (x : α) :
    (p.set k x).get k = x := by
  cases k <;> simp [PerClass.set, PerClass.get]

theorem PerClass.get_set_of_ne {α : Type} (p : PerClass α) {k l : CreditClass} (x : α) (h : l ≠ k) :
    (p.set k x).get l = p.get l := by
  cases k <;> cases l <;> simp only [PerClass.set, PerClass.get] <;>
    first | rfl | (exact Quad.get_set_of_ne _ _ (fun e => h (by rw [e]))) | exact absurd rfl h

@[simp] theorem PerClass.get_fill {α : Type} (x : α) (k : CreditClass) : (PerClass.fill x).get k = x := by
  cases k <;> simp [PerClass.fill, PerClass.get]

namespace Machine

/-! ### The field updates -/

@[simp] theorem State.setChan_pending (s : State) (c : Chan) (x : Channel) : (s.setChan c x).pending = s.pending := rfl
@[simp] theorem State.setChan_free (s : State) (c : Chan) (x : Channel) : (s.setChan c x).free = s.free := rfl
@[simp] theorem State.setChan_resetLow (s : State) (c : Chan) (x : Channel) : (s.setChan c x).resetLow = s.resetLow := rfl
@[simp] theorem State.setChan_startingUp (s : State) (c : Chan) (x : Channel) : (s.setChan c x).startingUp = s.startingUp := rfl
@[simp] theorem State.setChan_part (s : State) (c : Chan) (x : Channel) : (s.setChan c x).part = s.part := rfl
@[simp] theorem State.setChan_calFault (s : State) (c : Chan) (x : Channel) : (s.setChan c x).calFault = s.calFault := rfl
@[simp] theorem State.setChan_segs (s : State) (c : Chan) (x : Channel) : (s.setChan c x).segs = s.segs := rfl
@[simp] theorem State.setChan_profs (s : State) (c : Chan) (x : Channel) : (s.setChan c x).profs = s.profs := rfl
@[simp] theorem State.setChan_chans (s : State) (c : Chan) (x : Channel) : (s.setChan c x).chans = s.chans.set c x := rfl
@[simp] theorem State.setChan_groups (s : State) (c : Chan) (x : Channel) : (s.setChan c x).groups = s.groups := rfl
@[simp] theorem State.setChan_ckc (s : State) (c : Chan) (x : Channel) : (s.setChan c x).ckc = s.ckc := rfl
@[simp] theorem State.setChan_lrx (s : State) (c : Chan) (x : Channel) : (s.setChan c x).lrx = s.lrx := rfl
@[simp] theorem State.setChan_ltx (s : State) (c : Chan) (x : Channel) : (s.setChan c x).ltx = s.ltx := rfl
@[simp] theorem State.setChan_cmdQ (s : State) (c : Chan) (x : Channel) : (s.setChan c x).cmdQ = s.cmdQ := rfl
@[simp] theorem State.setChan_mgu (s : State) (c : Chan) (x : Channel) : (s.setChan c x).mgu = s.mgu := rfl
@[simp] theorem State.setChan_slots (s : State) (c : Chan) (x : Channel) : (s.setChan c x).slots = s.slots := rfl
@[simp] theorem State.setChan_events (s : State) (c : Chan) (x : Channel) : (s.setChan c x).events = s.events := rfl
@[simp] theorem State.setChan_mask (s : State) (c : Chan) (x : Channel) : (s.setChan c x).mask = s.mask := rfl
@[simp] theorem State.setChan_cal (s : State) (c : Chan) (x : Channel) : (s.setChan c x).cal = s.cal := rfl
@[simp] theorem State.setChan_store (s : State) (c : Chan) (x : Channel) : (s.setChan c x).store = s.store := rfl
@[simp] theorem State.setChan_ldw (s : State) (c : Chan) (x : Channel) : (s.setChan c x).ldw = s.ldw := rfl
@[simp] theorem State.setChan_retire (s : State) (c : Chan) (x : Channel) : (s.setChan c x).retire = s.retire := rfl
@[simp] theorem State.setChan_init (s : State) (c : Chan) (x : Channel) : (s.setChan c x).init = s.init := rfl

@[simp] theorem State.setStore_pending (s : State) (x : Store) : (s.setStore x).pending = s.pending := rfl
@[simp] theorem State.setStore_free (s : State) (x : Store) : (s.setStore x).free = s.free := rfl
@[simp] theorem State.setStore_resetLow (s : State) (x : Store) : (s.setStore x).resetLow = s.resetLow := rfl
@[simp] theorem State.setStore_startingUp (s : State) (x : Store) : (s.setStore x).startingUp = s.startingUp := rfl
@[simp] theorem State.setStore_part (s : State) (x : Store) : (s.setStore x).part = s.part := rfl
@[simp] theorem State.setStore_calFault (s : State) (x : Store) : (s.setStore x).calFault = s.calFault := rfl
@[simp] theorem State.setStore_segs (s : State) (x : Store) : (s.setStore x).segs = s.segs := rfl
@[simp] theorem State.setStore_profs (s : State) (x : Store) : (s.setStore x).profs = s.profs := rfl
@[simp] theorem State.setStore_chans (s : State) (x : Store) : (s.setStore x).chans = s.chans := rfl
@[simp] theorem State.setStore_groups (s : State) (x : Store) : (s.setStore x).groups = s.groups := rfl
@[simp] theorem State.setStore_ckc (s : State) (x : Store) : (s.setStore x).ckc = s.ckc := rfl
@[simp] theorem State.setStore_lrx (s : State) (x : Store) : (s.setStore x).lrx = s.lrx := rfl
@[simp] theorem State.setStore_ltx (s : State) (x : Store) : (s.setStore x).ltx = s.ltx := rfl
@[simp] theorem State.setStore_cmdQ (s : State) (x : Store) : (s.setStore x).cmdQ = s.cmdQ := rfl
@[simp] theorem State.setStore_mgu (s : State) (x : Store) : (s.setStore x).mgu = s.mgu := rfl
@[simp] theorem State.setStore_slots (s : State) (x : Store) : (s.setStore x).slots = s.slots := rfl
@[simp] theorem State.setStore_events (s : State) (x : Store) : (s.setStore x).events = s.events := rfl
@[simp] theorem State.setStore_mask (s : State) (x : Store) : (s.setStore x).mask = s.mask := rfl
@[simp] theorem State.setStore_cal (s : State) (x : Store) : (s.setStore x).cal = s.cal := rfl
@[simp] theorem State.setStore_store (s : State) (x : Store) : (s.setStore x).store = x := rfl
@[simp] theorem State.setStore_ldw (s : State) (x : Store) : (s.setStore x).ldw = s.ldw := rfl
@[simp] theorem State.setStore_retire (s : State) (x : Store) : (s.setStore x).retire = s.retire := rfl
@[simp] theorem State.setStore_init (s : State) (x : Store) : (s.setStore x).init = s.init := rfl

@[simp] theorem State.setBank_pending (s : State) (b : BankNo) (x : Bank) : (s.setBank b x).pending = s.pending := rfl
@[simp] theorem State.setBank_free (s : State) (b : BankNo) (x : Bank) : (s.setBank b x).free = s.free := rfl
@[simp] theorem State.setBank_resetLow (s : State) (b : BankNo) (x : Bank) : (s.setBank b x).resetLow = s.resetLow := rfl
@[simp] theorem State.setBank_startingUp (s : State) (b : BankNo) (x : Bank) : (s.setBank b x).startingUp = s.startingUp := rfl
@[simp] theorem State.setBank_part (s : State) (b : BankNo) (x : Bank) : (s.setBank b x).part = s.part := rfl
@[simp] theorem State.setBank_calFault (s : State) (b : BankNo) (x : Bank) : (s.setBank b x).calFault = s.calFault := rfl
@[simp] theorem State.setBank_segs (s : State) (b : BankNo) (x : Bank) : (s.setBank b x).segs = s.segs := rfl
@[simp] theorem State.setBank_profs (s : State) (b : BankNo) (x : Bank) : (s.setBank b x).profs = s.profs := rfl
@[simp] theorem State.setBank_chans (s : State) (b : BankNo) (x : Bank) : (s.setBank b x).chans = s.chans := rfl
@[simp] theorem State.setBank_groups (s : State) (b : BankNo) (x : Bank) : (s.setBank b x).groups = s.groups := rfl
@[simp] theorem State.setBank_ckc (s : State) (b : BankNo) (x : Bank) : (s.setBank b x).ckc = s.ckc := rfl
@[simp] theorem State.setBank_lrx (s : State) (b : BankNo) (x : Bank) : (s.setBank b x).lrx = s.lrx := rfl
@[simp] theorem State.setBank_ltx (s : State) (b : BankNo) (x : Bank) : (s.setBank b x).ltx = s.ltx := rfl
@[simp] theorem State.setBank_cmdQ (s : State) (b : BankNo) (x : Bank) : (s.setBank b x).cmdQ = s.cmdQ := rfl
@[simp] theorem State.setBank_mgu (s : State) (b : BankNo) (x : Bank) : (s.setBank b x).mgu = s.mgu := rfl
@[simp] theorem State.setBank_slots (s : State) (b : BankNo) (x : Bank) : (s.setBank b x).slots = s.slots := rfl
@[simp] theorem State.setBank_events (s : State) (b : BankNo) (x : Bank) : (s.setBank b x).events = s.events := rfl
@[simp] theorem State.setBank_mask (s : State) (b : BankNo) (x : Bank) : (s.setBank b x).mask = s.mask := rfl
@[simp] theorem State.setBank_cal (s : State) (b : BankNo) (x : Bank) : (s.setBank b x).cal = s.cal := rfl
@[simp] theorem State.setBank_store (s : State) (b : BankNo) (x : Bank) : (s.setBank b x).store = { s.store with banks := s.store.banks.set b x } := rfl
@[simp] theorem State.setBank_ldw (s : State) (b : BankNo) (x : Bank) : (s.setBank b x).ldw = s.ldw := rfl
@[simp] theorem State.setBank_retire (s : State) (b : BankNo) (x : Bank) : (s.setBank b x).retire = s.retire := rfl
@[simp] theorem State.setBank_init (s : State) (b : BankNo) (x : Bank) : (s.setBank b x).init = s.init := rfl

@[simp] theorem State.setCnt_pending (s : State) (c : Chan) (k : ChanCounters) : (s.setCnt c k).pending = s.pending := rfl
@[simp] theorem State.setCnt_free (s : State) (c : Chan) (k : ChanCounters) : (s.setCnt c k).free = s.free := rfl
@[simp] theorem State.setCnt_resetLow (s : State) (c : Chan) (k : ChanCounters) : (s.setCnt c k).resetLow = s.resetLow := rfl
@[simp] theorem State.setCnt_startingUp (s : State) (c : Chan) (k : ChanCounters) : (s.setCnt c k).startingUp = s.startingUp := rfl
@[simp] theorem State.setCnt_part (s : State) (c : Chan) (k : ChanCounters) : (s.setCnt c k).part = s.part := rfl
@[simp] theorem State.setCnt_calFault (s : State) (c : Chan) (k : ChanCounters) : (s.setCnt c k).calFault = s.calFault := rfl
@[simp] theorem State.setCnt_segs (s : State) (c : Chan) (k : ChanCounters) : (s.setCnt c k).segs = s.segs := rfl
@[simp] theorem State.setCnt_profs (s : State) (c : Chan) (k : ChanCounters) : (s.setCnt c k).profs = s.profs := rfl
@[simp] theorem State.setCnt_chans (s : State) (c : Chan) (k : ChanCounters) : (s.setCnt c k).chans = s.chans.set c { s.chan c with cnt := k } := rfl
@[simp] theorem State.setCnt_groups (s : State) (c : Chan) (k : ChanCounters) : (s.setCnt c k).groups = s.groups := rfl
@[simp] theorem State.setCnt_ckc (s : State) (c : Chan) (k : ChanCounters) : (s.setCnt c k).ckc = s.ckc := rfl
@[simp] theorem State.setCnt_lrx (s : State) (c : Chan) (k : ChanCounters) : (s.setCnt c k).lrx = s.lrx := rfl
@[simp] theorem State.setCnt_ltx (s : State) (c : Chan) (k : ChanCounters) : (s.setCnt c k).ltx = s.ltx := rfl
@[simp] theorem State.setCnt_cmdQ (s : State) (c : Chan) (k : ChanCounters) : (s.setCnt c k).cmdQ = s.cmdQ := rfl
@[simp] theorem State.setCnt_mgu (s : State) (c : Chan) (k : ChanCounters) : (s.setCnt c k).mgu = s.mgu := rfl
@[simp] theorem State.setCnt_slots (s : State) (c : Chan) (k : ChanCounters) : (s.setCnt c k).slots = s.slots := rfl
@[simp] theorem State.setCnt_events (s : State) (c : Chan) (k : ChanCounters) : (s.setCnt c k).events = s.events := rfl
@[simp] theorem State.setCnt_mask (s : State) (c : Chan) (k : ChanCounters) : (s.setCnt c k).mask = s.mask := rfl
@[simp] theorem State.setCnt_cal (s : State) (c : Chan) (k : ChanCounters) : (s.setCnt c k).cal = s.cal := rfl
@[simp] theorem State.setCnt_store (s : State) (c : Chan) (k : ChanCounters) : (s.setCnt c k).store = s.store := rfl
@[simp] theorem State.setCnt_ldw (s : State) (c : Chan) (k : ChanCounters) : (s.setCnt c k).ldw = s.ldw := rfl
@[simp] theorem State.setCnt_retire (s : State) (c : Chan) (k : ChanCounters) : (s.setCnt c k).retire = s.retire := rfl
@[simp] theorem State.setCnt_init (s : State) (c : Chan) (k : ChanCounters) : (s.setCnt c k).init = s.init := rfl

@[simp] theorem State.setMem_pending (s : State) (m : List (Nat × Grp)) : (s.setMem m).pending = s.pending := rfl
@[simp] theorem State.setMem_free (s : State) (m : List (Nat × Grp)) : (s.setMem m).free = s.free := rfl
@[simp] theorem State.setMem_resetLow (s : State) (m : List (Nat × Grp)) : (s.setMem m).resetLow = s.resetLow := rfl
@[simp] theorem State.setMem_startingUp (s : State) (m : List (Nat × Grp)) : (s.setMem m).startingUp = s.startingUp := rfl
@[simp] theorem State.setMem_part (s : State) (m : List (Nat × Grp)) : (s.setMem m).part = s.part := rfl
@[simp] theorem State.setMem_calFault (s : State) (m : List (Nat × Grp)) : (s.setMem m).calFault = s.calFault := rfl
@[simp] theorem State.setMem_segs (s : State) (m : List (Nat × Grp)) : (s.setMem m).segs = s.segs := rfl
@[simp] theorem State.setMem_profs (s : State) (m : List (Nat × Grp)) : (s.setMem m).profs = s.profs := rfl
@[simp] theorem State.setMem_chans (s : State) (m : List (Nat × Grp)) : (s.setMem m).chans = s.chans := rfl
@[simp] theorem State.setMem_groups (s : State) (m : List (Nat × Grp)) : (s.setMem m).groups = s.groups := rfl
@[simp] theorem State.setMem_ckc (s : State) (m : List (Nat × Grp)) : (s.setMem m).ckc = s.ckc := rfl
@[simp] theorem State.setMem_lrx (s : State) (m : List (Nat × Grp)) : (s.setMem m).lrx = s.lrx := rfl
@[simp] theorem State.setMem_ltx (s : State) (m : List (Nat × Grp)) : (s.setMem m).ltx = s.ltx := rfl
@[simp] theorem State.setMem_cmdQ (s : State) (m : List (Nat × Grp)) : (s.setMem m).cmdQ = s.cmdQ := rfl
@[simp] theorem State.setMem_mgu (s : State) (m : List (Nat × Grp)) : (s.setMem m).mgu = s.mgu := rfl
@[simp] theorem State.setMem_slots (s : State) (m : List (Nat × Grp)) : (s.setMem m).slots = s.slots := rfl
@[simp] theorem State.setMem_events (s : State) (m : List (Nat × Grp)) : (s.setMem m).events = s.events := rfl
@[simp] theorem State.setMem_mask (s : State) (m : List (Nat × Grp)) : (s.setMem m).mask = s.mask := rfl
@[simp] theorem State.setMem_cal (s : State) (m : List (Nat × Grp)) : (s.setMem m).cal = s.cal := rfl
@[simp] theorem State.setMem_store (s : State) (m : List (Nat × Grp)) : (s.setMem m).store = { s.store with mem := m } := rfl
@[simp] theorem State.setMem_ldw (s : State) (m : List (Nat × Grp)) : (s.setMem m).ldw = s.ldw := rfl
@[simp] theorem State.setMem_retire (s : State) (m : List (Nat × Grp)) : (s.setMem m).retire = s.retire := rfl
@[simp] theorem State.setMem_init (s : State) (m : List (Nat × Grp)) : (s.setMem m).init = s.init := rfl

@[simp] theorem State.setFetch_pending (s : State) (c : Chan) (f : Fetch) : (s.setFetch c f).pending = s.pending := rfl
@[simp] theorem State.setFetch_free (s : State) (c : Chan) (f : Fetch) : (s.setFetch c f).free = s.free := rfl
@[simp] theorem State.setFetch_resetLow (s : State) (c : Chan) (f : Fetch) : (s.setFetch c f).resetLow = s.resetLow := rfl
@[simp] theorem State.setFetch_startingUp (s : State) (c : Chan) (f : Fetch) : (s.setFetch c f).startingUp = s.startingUp := rfl
@[simp] theorem State.setFetch_part (s : State) (c : Chan) (f : Fetch) : (s.setFetch c f).part = s.part := rfl
@[simp] theorem State.setFetch_calFault (s : State) (c : Chan) (f : Fetch) : (s.setFetch c f).calFault = s.calFault := rfl
@[simp] theorem State.setFetch_segs (s : State) (c : Chan) (f : Fetch) : (s.setFetch c f).segs = s.segs := rfl
@[simp] theorem State.setFetch_profs (s : State) (c : Chan) (f : Fetch) : (s.setFetch c f).profs = s.profs := rfl
@[simp] theorem State.setFetch_chans (s : State) (c : Chan) (f : Fetch) : (s.setFetch c f).chans = s.chans.set c { s.chan c with fetch := f } := rfl
@[simp] theorem State.setFetch_groups (s : State) (c : Chan) (f : Fetch) : (s.setFetch c f).groups = s.groups := rfl
@[simp] theorem State.setFetch_ckc (s : State) (c : Chan) (f : Fetch) : (s.setFetch c f).ckc = s.ckc := rfl
@[simp] theorem State.setFetch_lrx (s : State) (c : Chan) (f : Fetch) : (s.setFetch c f).lrx = s.lrx := rfl
@[simp] theorem State.setFetch_ltx (s : State) (c : Chan) (f : Fetch) : (s.setFetch c f).ltx = s.ltx := rfl
@[simp] theorem State.setFetch_cmdQ (s : State) (c : Chan) (f : Fetch) : (s.setFetch c f).cmdQ = s.cmdQ := rfl
@[simp] theorem State.setFetch_mgu (s : State) (c : Chan) (f : Fetch) : (s.setFetch c f).mgu = s.mgu := rfl
@[simp] theorem State.setFetch_slots (s : State) (c : Chan) (f : Fetch) : (s.setFetch c f).slots = s.slots := rfl
@[simp] theorem State.setFetch_events (s : State) (c : Chan) (f : Fetch) : (s.setFetch c f).events = s.events := rfl
@[simp] theorem State.setFetch_mask (s : State) (c : Chan) (f : Fetch) : (s.setFetch c f).mask = s.mask := rfl
@[simp] theorem State.setFetch_cal (s : State) (c : Chan) (f : Fetch) : (s.setFetch c f).cal = s.cal := rfl
@[simp] theorem State.setFetch_store (s : State) (c : Chan) (f : Fetch) : (s.setFetch c f).store = s.store := rfl
@[simp] theorem State.setFetch_ldw (s : State) (c : Chan) (f : Fetch) : (s.setFetch c f).ldw = s.ldw := rfl
@[simp] theorem State.setFetch_retire (s : State) (c : Chan) (f : Fetch) : (s.setFetch c f).retire = s.retire := rfl
@[simp] theorem State.setFetch_init (s : State) (c : Chan) (f : Fetch) : (s.setFetch c f).init = s.init := rfl

@[simp] theorem State.setSt_pending (s : State) (c : Chan) (x : ChState) : (s.setSt c x).pending = s.pending := rfl
@[simp] theorem State.setSt_free (s : State) (c : Chan) (x : ChState) : (s.setSt c x).free = s.free := rfl
@[simp] theorem State.setSt_resetLow (s : State) (c : Chan) (x : ChState) : (s.setSt c x).resetLow = s.resetLow := rfl
@[simp] theorem State.setSt_startingUp (s : State) (c : Chan) (x : ChState) : (s.setSt c x).startingUp = s.startingUp := rfl
@[simp] theorem State.setSt_part (s : State) (c : Chan) (x : ChState) : (s.setSt c x).part = s.part := rfl
@[simp] theorem State.setSt_calFault (s : State) (c : Chan) (x : ChState) : (s.setSt c x).calFault = s.calFault := rfl
@[simp] theorem State.setSt_segs (s : State) (c : Chan) (x : ChState) : (s.setSt c x).segs = s.segs := rfl
@[simp] theorem State.setSt_profs (s : State) (c : Chan) (x : ChState) : (s.setSt c x).profs = s.profs := rfl
@[simp] theorem State.setSt_chans (s : State) (c : Chan) (x : ChState) : (s.setSt c x).chans = s.chans.set c { s.chan c with st := x } := rfl
@[simp] theorem State.setSt_groups (s : State) (c : Chan) (x : ChState) : (s.setSt c x).groups = s.groups := rfl
@[simp] theorem State.setSt_ckc (s : State) (c : Chan) (x : ChState) : (s.setSt c x).ckc = s.ckc := rfl
@[simp] theorem State.setSt_lrx (s : State) (c : Chan) (x : ChState) : (s.setSt c x).lrx = s.lrx := rfl
@[simp] theorem State.setSt_ltx (s : State) (c : Chan) (x : ChState) : (s.setSt c x).ltx = s.ltx := rfl
@[simp] theorem State.setSt_cmdQ (s : State) (c : Chan) (x : ChState) : (s.setSt c x).cmdQ = s.cmdQ := rfl
@[simp] theorem State.setSt_mgu (s : State) (c : Chan) (x : ChState) : (s.setSt c x).mgu = s.mgu := rfl
@[simp] theorem State.setSt_slots (s : State) (c : Chan) (x : ChState) : (s.setSt c x).slots = s.slots := rfl
@[simp] theorem State.setSt_events (s : State) (c : Chan) (x : ChState) : (s.setSt c x).events = s.events := rfl
@[simp] theorem State.setSt_mask (s : State) (c : Chan) (x : ChState) : (s.setSt c x).mask = s.mask := rfl
@[simp] theorem State.setSt_cal (s : State) (c : Chan) (x : ChState) : (s.setSt c x).cal = s.cal := rfl
@[simp] theorem State.setSt_store (s : State) (c : Chan) (x : ChState) : (s.setSt c x).store = s.store := rfl
@[simp] theorem State.setSt_ldw (s : State) (c : Chan) (x : ChState) : (s.setSt c x).ldw = s.ldw := rfl
@[simp] theorem State.setSt_retire (s : State) (c : Chan) (x : ChState) : (s.setSt c x).retire = s.retire := rfl
@[simp] theorem State.setSt_init (s : State) (c : Chan) (x : ChState) : (s.setSt c x).init = s.init := rfl

@[simp] theorem State.setGroup_pending (s : State) (g : Fin 4) (x : Option Group) : (s.setGroup g x).pending = s.pending := rfl
@[simp] theorem State.setGroup_free (s : State) (g : Fin 4) (x : Option Group) : (s.setGroup g x).free = s.free := rfl
@[simp] theorem State.setGroup_resetLow (s : State) (g : Fin 4) (x : Option Group) : (s.setGroup g x).resetLow = s.resetLow := rfl
@[simp] theorem State.setGroup_startingUp (s : State) (g : Fin 4) (x : Option Group) : (s.setGroup g x).startingUp = s.startingUp := rfl
@[simp] theorem State.setGroup_part (s : State) (g : Fin 4) (x : Option Group) : (s.setGroup g x).part = s.part := rfl
@[simp] theorem State.setGroup_calFault (s : State) (g : Fin 4) (x : Option Group) : (s.setGroup g x).calFault = s.calFault := rfl
@[simp] theorem State.setGroup_segs (s : State) (g : Fin 4) (x : Option Group) : (s.setGroup g x).segs = s.segs := rfl
@[simp] theorem State.setGroup_profs (s : State) (g : Fin 4) (x : Option Group) : (s.setGroup g x).profs = s.profs := rfl
@[simp] theorem State.setGroup_chans (s : State) (g : Fin 4) (x : Option Group) : (s.setGroup g x).chans = s.chans := rfl
@[simp] theorem State.setGroup_groups (s : State) (g : Fin 4) (x : Option Group) : (s.setGroup g x).groups = s.groups.set g x := rfl
@[simp] theorem State.setGroup_ckc (s : State) (g : Fin 4) (x : Option Group) : (s.setGroup g x).ckc = s.ckc := rfl
@[simp] theorem State.setGroup_lrx (s : State) (g : Fin 4) (x : Option Group) : (s.setGroup g x).lrx = s.lrx := rfl
@[simp] theorem State.setGroup_ltx (s : State) (g : Fin 4) (x : Option Group) : (s.setGroup g x).ltx = s.ltx := rfl
@[simp] theorem State.setGroup_cmdQ (s : State) (g : Fin 4) (x : Option Group) : (s.setGroup g x).cmdQ = s.cmdQ := rfl
@[simp] theorem State.setGroup_mgu (s : State) (g : Fin 4) (x : Option Group) : (s.setGroup g x).mgu = s.mgu := rfl
@[simp] theorem State.setGroup_slots (s : State) (g : Fin 4) (x : Option Group) : (s.setGroup g x).slots = s.slots := rfl
@[simp] theorem State.setGroup_events (s : State) (g : Fin 4) (x : Option Group) : (s.setGroup g x).events = s.events := rfl
@[simp] theorem State.setGroup_mask (s : State) (g : Fin 4) (x : Option Group) : (s.setGroup g x).mask = s.mask := rfl
@[simp] theorem State.setGroup_cal (s : State) (g : Fin 4) (x : Option Group) : (s.setGroup g x).cal = s.cal := rfl
@[simp] theorem State.setGroup_store (s : State) (g : Fin 4) (x : Option Group) : (s.setGroup g x).store = s.store := rfl
@[simp] theorem State.setGroup_ldw (s : State) (g : Fin 4) (x : Option Group) : (s.setGroup g x).ldw = s.ldw := rfl
@[simp] theorem State.setGroup_retire (s : State) (g : Fin 4) (x : Option Group) : (s.setGroup g x).retire = s.retire := rfl
@[simp] theorem State.setGroup_init (s : State) (g : Fin 4) (x : Option Group) : (s.setGroup g x).init = s.init := rfl

@[simp] theorem State.setCkc_pending (s : State) (x : Ckc) : (s.setCkc x).pending = s.pending := rfl
@[simp] theorem State.setCkc_free (s : State) (x : Ckc) : (s.setCkc x).free = s.free := rfl
@[simp] theorem State.setCkc_resetLow (s : State) (x : Ckc) : (s.setCkc x).resetLow = s.resetLow := rfl
@[simp] theorem State.setCkc_startingUp (s : State) (x : Ckc) : (s.setCkc x).startingUp = s.startingUp := rfl
@[simp] theorem State.setCkc_part (s : State) (x : Ckc) : (s.setCkc x).part = s.part := rfl
@[simp] theorem State.setCkc_calFault (s : State) (x : Ckc) : (s.setCkc x).calFault = s.calFault := rfl
@[simp] theorem State.setCkc_segs (s : State) (x : Ckc) : (s.setCkc x).segs = s.segs := rfl
@[simp] theorem State.setCkc_profs (s : State) (x : Ckc) : (s.setCkc x).profs = s.profs := rfl
@[simp] theorem State.setCkc_chans (s : State) (x : Ckc) : (s.setCkc x).chans = s.chans := rfl
@[simp] theorem State.setCkc_groups (s : State) (x : Ckc) : (s.setCkc x).groups = s.groups := rfl
@[simp] theorem State.setCkc_ckc (s : State) (x : Ckc) : (s.setCkc x).ckc = x := rfl
@[simp] theorem State.setCkc_lrx (s : State) (x : Ckc) : (s.setCkc x).lrx = s.lrx := rfl
@[simp] theorem State.setCkc_ltx (s : State) (x : Ckc) : (s.setCkc x).ltx = s.ltx := rfl
@[simp] theorem State.setCkc_cmdQ (s : State) (x : Ckc) : (s.setCkc x).cmdQ = s.cmdQ := rfl
@[simp] theorem State.setCkc_mgu (s : State) (x : Ckc) : (s.setCkc x).mgu = s.mgu := rfl
@[simp] theorem State.setCkc_slots (s : State) (x : Ckc) : (s.setCkc x).slots = s.slots := rfl
@[simp] theorem State.setCkc_events (s : State) (x : Ckc) : (s.setCkc x).events = s.events := rfl
@[simp] theorem State.setCkc_mask (s : State) (x : Ckc) : (s.setCkc x).mask = s.mask := rfl
@[simp] theorem State.setCkc_cal (s : State) (x : Ckc) : (s.setCkc x).cal = s.cal := rfl
@[simp] theorem State.setCkc_store (s : State) (x : Ckc) : (s.setCkc x).store = s.store := rfl
@[simp] theorem State.setCkc_ldw (s : State) (x : Ckc) : (s.setCkc x).ldw = s.ldw := rfl
@[simp] theorem State.setCkc_retire (s : State) (x : Ckc) : (s.setCkc x).retire = s.retire := rfl
@[simp] theorem State.setCkc_init (s : State) (x : Ckc) : (s.setCkc x).init = s.init := rfl

@[simp] theorem State.setLdw_pending (s : State) (x : Ldw) : (s.setLdw x).pending = s.pending := rfl
@[simp] theorem State.setLdw_free (s : State) (x : Ldw) : (s.setLdw x).free = s.free := rfl
@[simp] theorem State.setLdw_resetLow (s : State) (x : Ldw) : (s.setLdw x).resetLow = s.resetLow := rfl
@[simp] theorem State.setLdw_startingUp (s : State) (x : Ldw) : (s.setLdw x).startingUp = s.startingUp := rfl
@[simp] theorem State.setLdw_part (s : State) (x : Ldw) : (s.setLdw x).part = s.part := rfl
@[simp] theorem State.setLdw_calFault (s : State) (x : Ldw) : (s.setLdw x).calFault = s.calFault := rfl
@[simp] theorem State.setLdw_segs (s : State) (x : Ldw) : (s.setLdw x).segs = s.segs := rfl
@[simp] theorem State.setLdw_profs (s : State) (x : Ldw) : (s.setLdw x).profs = s.profs := rfl
@[simp] theorem State.setLdw_chans (s : State) (x : Ldw) : (s.setLdw x).chans = s.chans := rfl
@[simp] theorem State.setLdw_groups (s : State) (x : Ldw) : (s.setLdw x).groups = s.groups := rfl
@[simp] theorem State.setLdw_ckc (s : State) (x : Ldw) : (s.setLdw x).ckc = s.ckc := rfl
@[simp] theorem State.setLdw_lrx (s : State) (x : Ldw) : (s.setLdw x).lrx = s.lrx := rfl
@[simp] theorem State.setLdw_ltx (s : State) (x : Ldw) : (s.setLdw x).ltx = s.ltx := rfl
@[simp] theorem State.setLdw_cmdQ (s : State) (x : Ldw) : (s.setLdw x).cmdQ = s.cmdQ := rfl
@[simp] theorem State.setLdw_mgu (s : State) (x : Ldw) : (s.setLdw x).mgu = s.mgu := rfl
@[simp] theorem State.setLdw_slots (s : State) (x : Ldw) : (s.setLdw x).slots = s.slots := rfl
@[simp] theorem State.setLdw_events (s : State) (x : Ldw) : (s.setLdw x).events = s.events := rfl
@[simp] theorem State.setLdw_mask (s : State) (x : Ldw) : (s.setLdw x).mask = s.mask := rfl
@[simp] theorem State.setLdw_cal (s : State) (x : Ldw) : (s.setLdw x).cal = s.cal := rfl
@[simp] theorem State.setLdw_store (s : State) (x : Ldw) : (s.setLdw x).store = s.store := rfl
@[simp] theorem State.setLdw_ldw (s : State) (x : Ldw) : (s.setLdw x).ldw = x := rfl
@[simp] theorem State.setLdw_retire (s : State) (x : Ldw) : (s.setLdw x).retire = s.retire := rfl
@[simp] theorem State.setLdw_init (s : State) (x : Ldw) : (s.setLdw x).init = s.init := rfl

@[simp] theorem State.setCal_pending (s : State) (x : Cal) : (s.setCal x).pending = s.pending := rfl
@[simp] theorem State.setCal_free (s : State) (x : Cal) : (s.setCal x).free = s.free := rfl
@[simp] theorem State.setCal_resetLow (s : State) (x : Cal) : (s.setCal x).resetLow = s.resetLow := rfl
@[simp] theorem State.setCal_startingUp (s : State) (x : Cal) : (s.setCal x).startingUp = s.startingUp := rfl
@[simp] theorem State.setCal_part (s : State) (x : Cal) : (s.setCal x).part = s.part := rfl
@[simp] theorem State.setCal_calFault (s : State) (x : Cal) : (s.setCal x).calFault = s.calFault := rfl
@[simp] theorem State.setCal_segs (s : State) (x : Cal) : (s.setCal x).segs = s.segs := rfl
@[simp] theorem State.setCal_profs (s : State) (x : Cal) : (s.setCal x).profs = s.profs := rfl
@[simp] theorem State.setCal_chans (s : State) (x : Cal) : (s.setCal x).chans = s.chans := rfl
@[simp] theorem State.setCal_groups (s : State) (x : Cal) : (s.setCal x).groups = s.groups := rfl
@[simp] theorem State.setCal_ckc (s : State) (x : Cal) : (s.setCal x).ckc = s.ckc := rfl
@[simp] theorem State.setCal_lrx (s : State) (x : Cal) : (s.setCal x).lrx = s.lrx := rfl
@[simp] theorem State.setCal_ltx (s : State) (x : Cal) : (s.setCal x).ltx = s.ltx := rfl
@[simp] theorem State.setCal_cmdQ (s : State) (x : Cal) : (s.setCal x).cmdQ = s.cmdQ := rfl
@[simp] theorem State.setCal_mgu (s : State) (x : Cal) : (s.setCal x).mgu = s.mgu := rfl
@[simp] theorem State.setCal_slots (s : State) (x : Cal) : (s.setCal x).slots = s.slots := rfl
@[simp] theorem State.setCal_events (s : State) (x : Cal) : (s.setCal x).events = s.events := rfl
@[simp] theorem State.setCal_mask (s : State) (x : Cal) : (s.setCal x).mask = s.mask := rfl
@[simp] theorem State.setCal_cal (s : State) (x : Cal) : (s.setCal x).cal = x := rfl
@[simp] theorem State.setCal_store (s : State) (x : Cal) : (s.setCal x).store = s.store := rfl
@[simp] theorem State.setCal_ldw (s : State) (x : Cal) : (s.setCal x).ldw = s.ldw := rfl
@[simp] theorem State.setCal_retire (s : State) (x : Cal) : (s.setCal x).retire = s.retire := rfl
@[simp] theorem State.setCal_init (s : State) (x : Cal) : (s.setCal x).init = s.init := rfl

@[simp] theorem State.setLrx_pending (s : State) (x : Lrx) : (s.setLrx x).pending = s.pending := rfl
@[simp] theorem State.setLrx_free (s : State) (x : Lrx) : (s.setLrx x).free = s.free := rfl
@[simp] theorem State.setLrx_resetLow (s : State) (x : Lrx) : (s.setLrx x).resetLow = s.resetLow := rfl
@[simp] theorem State.setLrx_startingUp (s : State) (x : Lrx) : (s.setLrx x).startingUp = s.startingUp := rfl
@[simp] theorem State.setLrx_part (s : State) (x : Lrx) : (s.setLrx x).part = s.part := rfl
@[simp] theorem State.setLrx_calFault (s : State) (x : Lrx) : (s.setLrx x).calFault = s.calFault := rfl
@[simp] theorem State.setLrx_segs (s : State) (x : Lrx) : (s.setLrx x).segs = s.segs := rfl
@[simp] theorem State.setLrx_profs (s : State) (x : Lrx) : (s.setLrx x).profs = s.profs := rfl
@[simp] theorem State.setLrx_chans (s : State) (x : Lrx) : (s.setLrx x).chans = s.chans := rfl
@[simp] theorem State.setLrx_groups (s : State) (x : Lrx) : (s.setLrx x).groups = s.groups := rfl
@[simp] theorem State.setLrx_ckc (s : State) (x : Lrx) : (s.setLrx x).ckc = s.ckc := rfl
@[simp] theorem State.setLrx_lrx (s : State) (x : Lrx) : (s.setLrx x).lrx = x := rfl
@[simp] theorem State.setLrx_ltx (s : State) (x : Lrx) : (s.setLrx x).ltx = s.ltx := rfl
@[simp] theorem State.setLrx_cmdQ (s : State) (x : Lrx) : (s.setLrx x).cmdQ = s.cmdQ := rfl
@[simp] theorem State.setLrx_mgu (s : State) (x : Lrx) : (s.setLrx x).mgu = s.mgu := rfl
@[simp] theorem State.setLrx_slots (s : State) (x : Lrx) : (s.setLrx x).slots = s.slots := rfl
@[simp] theorem State.setLrx_events (s : State) (x : Lrx) : (s.setLrx x).events = s.events := rfl
@[simp] theorem State.setLrx_mask (s : State) (x : Lrx) : (s.setLrx x).mask = s.mask := rfl
@[simp] theorem State.setLrx_cal (s : State) (x : Lrx) : (s.setLrx x).cal = s.cal := rfl
@[simp] theorem State.setLrx_store (s : State) (x : Lrx) : (s.setLrx x).store = s.store := rfl
@[simp] theorem State.setLrx_ldw (s : State) (x : Lrx) : (s.setLrx x).ldw = s.ldw := rfl
@[simp] theorem State.setLrx_retire (s : State) (x : Lrx) : (s.setLrx x).retire = s.retire := rfl
@[simp] theorem State.setLrx_init (s : State) (x : Lrx) : (s.setLrx x).init = s.init := rfl

@[simp] theorem State.setRetire_pending (s : State) (x : Option Retire) : (s.setRetire x).pending = s.pending := rfl
@[simp] theorem State.setRetire_free (s : State) (x : Option Retire) : (s.setRetire x).free = s.free := rfl
@[simp] theorem State.setRetire_resetLow (s : State) (x : Option Retire) : (s.setRetire x).resetLow = s.resetLow := rfl
@[simp] theorem State.setRetire_startingUp (s : State) (x : Option Retire) : (s.setRetire x).startingUp = s.startingUp := rfl
@[simp] theorem State.setRetire_part (s : State) (x : Option Retire) : (s.setRetire x).part = s.part := rfl
@[simp] theorem State.setRetire_calFault (s : State) (x : Option Retire) : (s.setRetire x).calFault = s.calFault := rfl
@[simp] theorem State.setRetire_segs (s : State) (x : Option Retire) : (s.setRetire x).segs = s.segs := rfl
@[simp] theorem State.setRetire_profs (s : State) (x : Option Retire) : (s.setRetire x).profs = s.profs := rfl
@[simp] theorem State.setRetire_chans (s : State) (x : Option Retire) : (s.setRetire x).chans = s.chans := rfl
@[simp] theorem State.setRetire_groups (s : State) (x : Option Retire) : (s.setRetire x).groups = s.groups := rfl
@[simp] theorem State.setRetire_ckc (s : State) (x : Option Retire) : (s.setRetire x).ckc = s.ckc := rfl
@[simp] theorem State.setRetire_lrx (s : State) (x : Option Retire) : (s.setRetire x).lrx = s.lrx := rfl
@[simp] theorem State.setRetire_ltx (s : State) (x : Option Retire) : (s.setRetire x).ltx = s.ltx := rfl
@[simp] theorem State.setRetire_cmdQ (s : State) (x : Option Retire) : (s.setRetire x).cmdQ = s.cmdQ := rfl
@[simp] theorem State.setRetire_mgu (s : State) (x : Option Retire) : (s.setRetire x).mgu = s.mgu := rfl
@[simp] theorem State.setRetire_slots (s : State) (x : Option Retire) : (s.setRetire x).slots = s.slots := rfl
@[simp] theorem State.setRetire_events (s : State) (x : Option Retire) : (s.setRetire x).events = s.events := rfl
@[simp] theorem State.setRetire_mask (s : State) (x : Option Retire) : (s.setRetire x).mask = s.mask := rfl
@[simp] theorem State.setRetire_cal (s : State) (x : Option Retire) : (s.setRetire x).cal = s.cal := rfl
@[simp] theorem State.setRetire_store (s : State) (x : Option Retire) : (s.setRetire x).store = s.store := rfl
@[simp] theorem State.setRetire_ldw (s : State) (x : Option Retire) : (s.setRetire x).ldw = s.ldw := rfl
@[simp] theorem State.setRetire_retire (s : State) (x : Option Retire) : (s.setRetire x).retire = x := rfl
@[simp] theorem State.setRetire_init (s : State) (x : Option Retire) : (s.setRetire x).init = s.init := rfl

/-! ### Reading what was set -/

@[simp] theorem State.chan_setChan_self (s : State) (c : Chan) (x : Channel) : (s.setChan c x).chan c = x :=
  Quad.get_set_self _ _ _

theorem State.chan_setChan_of_ne (s : State) {c d : Chan} (x : Channel) (h : d ≠ c) :
    (s.setChan c x).chan d = s.chan d := Quad.get_set_of_ne _ _ h

@[simp] theorem State.bank_setBank_self (s : State) (b : BankNo) (x : Bank) : (s.setBank b x).bank b = x :=
  Quad.get_set_self _ _ _

theorem State.bank_setBank_of_ne (s : State) {b d : BankNo} (x : Bank) (h : d ≠ b) :
    (s.setBank b x).bank d = s.bank d := Quad.get_set_of_ne _ _ h

@[simp] theorem State.bank_setChan (s : State) (c : Chan) (x : Channel) (b : BankNo) :
    (s.setChan c x).bank b = s.bank b := rfl

@[simp] theorem State.chan_setBank (s : State) (b : BankNo) (x : Bank) (c : Chan) :
    (s.setBank b x).chan c = s.chan c := rfl

@[simp] theorem State.chan_setStore (s : State) (x : Store) (c : Chan) : (s.setStore x).chan c = s.chan c := rfl

end Machine
end Sys2Proof
end

