-- ==== Sys2Proof/Laws/Ops.lean ====
section
/-! SUPPORT. What the shared operations leave alone and what they do: postings, credits, use counts, replies, the
take of an operation, canonical tables, bank decisions. -/

namespace Sys2Proof.Machine

/-! ### Postings (R172) -/

@[simp] theorem post_pending (src : Source) (kind : Kind) (detail : BitVec 32) (status : Code) (s : State) : (post src kind detail status s).pending = s.pending := by
  unfold post; split <;> rfl
@[simp] theorem post_free (src : Source) (kind : Kind) (detail : BitVec 32) (status : Code) (s : State) : (post src kind detail status s).free = s.free := by
  unfold post; split <;> rfl
@[simp] theorem post_resetLow (src : Source) (kind : Kind) (detail : BitVec 32) (status : Code) (s : State) : (post src kind detail status s).resetLow = s.resetLow := by
  unfold post; split <;> rfl
@[simp] theorem post_startingUp (src : Source) (kind : Kind) (detail : BitVec 32) (status : Code) (s : State) : (post src kind detail status s).startingUp = s.startingUp := by
  unfold post; split <;> rfl
@[simp] theorem post_part (src : Source) (kind : Kind) (detail : BitVec 32) (status : Code) (s : State) : (post src kind detail status s).part = s.part := by
  unfold post; split <;> rfl
@[simp] theorem post_calFault (src : Source) (kind : Kind) (detail : BitVec 32) (status : Code) (s : State) : (post src kind detail status s).calFault = s.calFault := by
  unfold post; split <;> rfl
@[simp] theorem post_segs (src : Source) (kind : Kind) (detail : BitVec 32) (status : Code) (s : State) : (post src kind detail status s).segs = s.segs := by
  unfold post; split <;> rfl
@[simp] theorem post_profs (src : Source) (kind : Kind) (detail : BitVec 32) (status : Code) (s : State) : (post src kind detail status s).profs = s.profs := by
  unfold post; split <;> rfl
@[simp] theorem post_chans (src : Source) (kind : Kind) (detail : BitVec 32) (status : Code) (s : State) : (post src kind detail status s).chans = s.chans := by
  unfold post; split <;> rfl
@[simp] theorem post_groups (src : Source) (kind : Kind) (detail : BitVec 32) (status : Code) (s : State) : (post src kind detail status s).groups = s.groups := by
  unfold post; split <;> rfl
@[simp] theorem post_ckc (src : Source) (kind : Kind) (detail : BitVec 32) (status : Code) (s : State) : (post src kind detail status s).ckc = s.ckc := by
  unfold post; split <;> rfl
@[simp] theorem post_lrx (src : Source) (kind : Kind) (detail : BitVec 32) (status : Code) (s : State) : (post src kind detail status s).lrx = s.lrx := by
  unfold post; split <;> rfl
@[simp] theorem post_ltx (src : Source) (kind : Kind) (detail : BitVec 32) (status : Code) (s : State) : (post src kind detail status s).ltx = s.ltx := by
  unfold post; split <;> rfl
@[simp] theorem post_cmdQ (src : Source) (kind : Kind) (detail : BitVec 32) (status : Code) (s : State) : (post src kind detail status s).cmdQ = s.cmdQ := by
  unfold post; split <;> rfl
@[simp] theorem post_mgu (src : Source) (kind : Kind) (detail : BitVec 32) (status : Code) (s : State) : (post src kind detail status s).mgu = s.mgu := by
  unfold post; split <;> rfl
@[simp] theorem post_slots (src : Source) (kind : Kind) (detail : BitVec 32) (status : Code) (s : State) : (post src kind detail status s).slots = s.slots := by
  unfold post; split <;> rfl
@[simp] theorem post_mask (src : Source) (kind : Kind) (detail : BitVec 32) (status : Code) (s : State) : (post src kind detail status s).mask = s.mask := by
  unfold post; split <;> rfl
@[simp] theorem post_cal (src : Source) (kind : Kind) (detail : BitVec 32) (status : Code) (s : State) : (post src kind detail status s).cal = s.cal := by
  unfold post; split <;> rfl
@[simp] theorem post_store (src : Source) (kind : Kind) (detail : BitVec 32) (status : Code) (s : State) : (post src kind detail status s).store = s.store := by
  unfold post; split <;> rfl
@[simp] theorem post_ldw (src : Source) (kind : Kind) (detail : BitVec 32) (status : Code) (s : State) : (post src kind detail status s).ldw = s.ldw := by
  unfold post; split <;> rfl
@[simp] theorem post_retire (src : Source) (kind : Kind) (detail : BitVec 32) (status : Code) (s : State) : (post src kind detail status s).retire = s.retire := by
  unfold post; split <;> rfl
@[simp] theorem post_init (src : Source) (kind : Kind) (detail : BitVec 32) (status : Code) (s : State) : (post src kind detail status s).init = s.init := by
  unfold post; split <;> rfl

/-- Everything a posting does to the event queue (R172). -/
theorem post_events (src : Source) (kind : Kind) (detail : BitVec 32) (status : Code) (s : State) :
    (post src kind detail status s).events =
      if s.mask.getLsbD kind.num then foldEvent src kind detail status s.events else s.events := by
  unfold post; split <;> rfl

@[simp] theorem post_chan (src : Source) (kind : Kind) (detail : BitVec 32) (status : Code) (s : State) (c : Chan) :
    (post src kind detail status s).chan c = s.chan c := by
  unfold post; split <;> rfl

@[simp] theorem post_bank (src : Source) (kind : Kind) (detail : BitVec 32) (status : Code) (s : State)
    (b : BankNo) : (post src kind detail status s).bank b = s.bank b := by
  unfold post; split <;> rfl

/-! ### Credits (R149) -/

@[simp] theorem freeCredits_pending (k : CreditClass) (n : Nat) (s : State) : (freeCredits k n s).pending = s.pending := by
  rfl
@[simp] theorem freeCredits_free (k : CreditClass) (n : Nat) (s : State) : (freeCredits k n s).free = s.free := by
  rfl
@[simp] theorem freeCredits_resetLow (k : CreditClass) (n : Nat) (s : State) : (freeCredits k n s).resetLow = s.resetLow := by
  rfl
@[simp] theorem freeCredits_startingUp (k : CreditClass) (n : Nat) (s : State) : (freeCredits k n s).startingUp = s.startingUp := by
  rfl
@[simp] theorem freeCredits_part (k : CreditClass) (n : Nat) (s : State) : (freeCredits k n s).part = s.part := by
  rfl
@[simp] theorem freeCredits_calFault (k : CreditClass) (n : Nat) (s : State) : (freeCredits k n s).calFault = s.calFault := by
  rfl
@[simp] theorem freeCredits_segs (k : CreditClass) (n : Nat) (s : State) : (freeCredits k n s).segs = s.segs := by
  rfl
@[simp] theorem freeCredits_profs (k : CreditClass) (n : Nat) (s : State) : (freeCredits k n s).profs = s.profs := by
  rfl
@[simp] theorem freeCredits_chans (k : CreditClass) (n : Nat) (s : State) : (freeCredits k n s).chans = s.chans := by
  rfl
@[simp] theorem freeCredits_groups (k : CreditClass) (n : Nat) (s : State) : (freeCredits k n s).groups = s.groups := by
  rfl
@[simp] theorem freeCredits_ckc (k : CreditClass) (n : Nat) (s : State) : (freeCredits k n s).ckc = s.ckc := by
  rfl
@[simp] theorem freeCredits_lrx (k : CreditClass) (n : Nat) (s : State) : (freeCredits k n s).lrx = s.lrx := by
  rfl
@[simp] theorem freeCredits_cmdQ (k : CreditClass) (n : Nat) (s : State) : (freeCredits k n s).cmdQ = s.cmdQ := by
  rfl
@[simp] theorem freeCredits_mgu (k : CreditClass) (n : Nat) (s : State) : (freeCredits k n s).mgu = s.mgu := by
  rfl
@[simp] theorem freeCredits_slots (k : CreditClass) (n : Nat) (s : State) : (freeCredits k n s).slots = s.slots := by
  rfl
@[simp] theorem freeCredits_events (k : CreditClass) (n : Nat) (s : State) : (freeCredits k n s).events = s.events := by
  rfl
@[simp] theorem freeCredits_mask (k : CreditClass) (n : Nat) (s : State) : (freeCredits k n s).mask = s.mask := by
  rfl
@[simp] theorem freeCredits_cal (k : CreditClass) (n : Nat) (s : State) : (freeCredits k n s).cal = s.cal := by
  rfl
@[simp] theorem freeCredits_store (k : CreditClass) (n : Nat) (s : State) : (freeCredits k n s).store = s.store := by
  rfl
@[simp] theorem freeCredits_ldw (k : CreditClass) (n : Nat) (s : State) : (freeCredits k n s).ldw = s.ldw := by
  rfl
@[simp] theorem freeCredits_retire (k : CreditClass) (n : Nat) (s : State) : (freeCredits k n s).retire = s.retire := by
  rfl
@[simp] theorem freeCredits_init (k : CreditClass) (n : Nat) (s : State) : (freeCredits k n s).init = s.init := by
  rfl
@[simp] theorem countReceived_pending (k : CreditClass) (s : State) : (countReceived k s).pending = s.pending := by
  rfl
@[simp] theorem countReceived_free (k : CreditClass) (s : State) : (countReceived k s).free = s.free := by
  rfl
@[simp] theorem countReceived_resetLow (k : CreditClass) (s : State) : (countReceived k s).resetLow = s.resetLow := by
  rfl
@[simp] theorem countReceived_startingUp (k : CreditClass) (s : State) : (countReceived k s).startingUp = s.startingUp := by
  rfl
@[simp] theorem countReceived_part (k : CreditClass) (s : State) : (countReceived k s).part = s.part := by
  rfl
@[simp] theorem countReceived_calFault (k : CreditClass) (s : State) : (countReceived k s).calFault = s.calFault := by
  rfl
@[simp] theorem countReceived_segs (k : CreditClass) (s : State) : (countReceived k s).segs = s.segs := by
  rfl
@[simp] theorem countReceived_profs (k : CreditClass) (s : State) : (countReceived k s).profs = s.profs := by
  rfl
@[simp] theorem countReceived_chans (k : CreditClass) (s : State) : (countReceived k s).chans = s.chans := by
  rfl
@[simp] theorem countReceived_groups (k : CreditClass) (s : State) : (countReceived k s).groups = s.groups := by
  rfl
@[simp] theorem countReceived_ckc (k : CreditClass) (s : State) : (countReceived k s).ckc = s.ckc := by
  rfl
@[simp] theorem countReceived_ltx (k : CreditClass) (s : State) : (countReceived k s).ltx = s.ltx := by
  rfl
@[simp] theorem countReceived_cmdQ (k : CreditClass) (s : State) : (countReceived k s).cmdQ = s.cmdQ := by
  rfl
@[simp] theorem countReceived_mgu (k : CreditClass) (s : State) : (countReceived k s).mgu = s.mgu := by
  rfl
@[simp] theorem countReceived_slots (k : CreditClass) (s : State) : (countReceived k s).slots = s.slots := by
  rfl
@[simp] theorem countReceived_events (k : CreditClass) (s : State) : (countReceived k s).events = s.events := by
  rfl
@[simp] theorem countReceived_mask (k : CreditClass) (s : State) : (countReceived k s).mask = s.mask := by
  rfl
@[simp] theorem countReceived_cal (k : CreditClass) (s : State) : (countReceived k s).cal = s.cal := by
  rfl
@[simp] theorem countReceived_store (k : CreditClass) (s : State) : (countReceived k s).store = s.store := by
  rfl
@[simp] theorem countReceived_ldw (k : CreditClass) (s : State) : (countReceived k s).ldw = s.ldw := by
  rfl
@[simp] theorem countReceived_retire (k : CreditClass) (s : State) : (countReceived k s).retire = s.retire := by
  rfl
@[simp] theorem countReceived_init (k : CreditClass) (s : State) : (countReceived k s).init = s.init := by
  rfl
@[simp] theorem syncGood_pending (s : State) : (syncGood s).pending = s.pending := by
  rfl
@[simp] theorem syncGood_free (s : State) : (syncGood s).free = s.free := by
  rfl
@[simp] theorem syncGood_resetLow (s : State) : (syncGood s).resetLow = s.resetLow := by
  rfl
@[simp] theorem syncGood_startingUp (s : State) : (syncGood s).startingUp = s.startingUp := by
  rfl
@[simp] theorem syncGood_part (s : State) : (syncGood s).part = s.part := by
  rfl
@[simp] theorem syncGood_calFault (s : State) : (syncGood s).calFault = s.calFault := by
  rfl
@[simp] theorem syncGood_segs (s : State) : (syncGood s).segs = s.segs := by
  rfl
@[simp] theorem syncGood_profs (s : State) : (syncGood s).profs = s.profs := by
  rfl
@[simp] theorem syncGood_chans (s : State) : (syncGood s).chans = s.chans := by
  rfl
@[simp] theorem syncGood_groups (s : State) : (syncGood s).groups = s.groups := by
  rfl
@[simp] theorem syncGood_ckc (s : State) : (syncGood s).ckc = s.ckc := by
  rfl
@[simp] theorem syncGood_ltx (s : State) : (syncGood s).ltx = s.ltx := by
  rfl
@[simp] theorem syncGood_cmdQ (s : State) : (syncGood s).cmdQ = s.cmdQ := by
  rfl
@[simp] theorem syncGood_mgu (s : State) : (syncGood s).mgu = s.mgu := by
  rfl
@[simp] theorem syncGood_slots (s : State) : (syncGood s).slots = s.slots := by
  rfl
@[simp] theorem syncGood_events (s : State) : (syncGood s).events = s.events := by
  rfl
@[simp] theorem syncGood_mask (s : State) : (syncGood s).mask = s.mask := by
  rfl
@[simp] theorem syncGood_cal (s : State) : (syncGood s).cal = s.cal := by
  rfl
@[simp] theorem syncGood_store (s : State) : (syncGood s).store = s.store := by
  rfl
@[simp] theorem syncGood_ldw (s : State) : (syncGood s).ldw = s.ldw := by
  rfl
@[simp] theorem syncGood_retire (s : State) : (syncGood s).retire = s.retire := by
  rfl
@[simp] theorem syncGood_init (s : State) : (syncGood s).init = s.init := by
  rfl
@[simp] theorem controlTaken_pending (s : State) : (controlTaken s).pending = s.pending := by
  rfl
@[simp] theorem controlTaken_free (s : State) : (controlTaken s).free = s.free := by
  rfl
@[simp] theorem controlTaken_resetLow (s : State) : (controlTaken s).resetLow = s.resetLow := by
  rfl
@[simp] theorem controlTaken_startingUp (s : State) : (controlTaken s).startingUp = s.startingUp := by
  rfl
@[simp] theorem controlTaken_part (s : State) : (controlTaken s).part = s.part := by
  rfl
@[simp] theorem controlTaken_calFault (s : State) : (controlTaken s).calFault = s.calFault := by
  rfl
@[simp] theorem controlTaken_segs (s : State) : (controlTaken s).segs = s.segs := by
  rfl
@[simp] theorem controlTaken_profs (s : State) : (controlTaken s).profs = s.profs := by
  rfl
@[simp] theorem controlTaken_chans (s : State) : (controlTaken s).chans = s.chans := by
  rfl
@[simp] theorem controlTaken_groups (s : State) : (controlTaken s).groups = s.groups := by
  rfl
@[simp] theorem controlTaken_ckc (s : State) : (controlTaken s).ckc = s.ckc := by
  rfl
@[simp] theorem controlTaken_cmdQ (s : State) : (controlTaken s).cmdQ = s.cmdQ := by
  rfl
@[simp] theorem controlTaken_mgu (s : State) : (controlTaken s).mgu = s.mgu := by
  rfl
@[simp] theorem controlTaken_slots (s : State) : (controlTaken s).slots = s.slots := by
  rfl
@[simp] theorem controlTaken_events (s : State) : (controlTaken s).events = s.events := by
  rfl
@[simp] theorem controlTaken_mask (s : State) : (controlTaken s).mask = s.mask := by
  rfl
@[simp] theorem controlTaken_cal (s : State) : (controlTaken s).cal = s.cal := by
  rfl
@[simp] theorem controlTaken_store (s : State) : (controlTaken s).store = s.store := by
  rfl
@[simp] theorem controlTaken_ldw (s : State) : (controlTaken s).ldw = s.ldw := by
  rfl
@[simp] theorem controlTaken_retire (s : State) : (controlTaken s).retire = s.retire := by
  rfl
@[simp] theorem controlTaken_init (s : State) : (controlTaken s).init = s.init := by
  rfl
@[simp] theorem replied_pending (tag : BitVec 16) (code : Byte) (status : Code) (data : List Byte) (s : State) : (replied tag code status data s).pending = s.pending := by
  rfl
@[simp] theorem replied_free (tag : BitVec 16) (code : Byte) (status : Code) (data : List Byte) (s : State) : (replied tag code status data s).free = s.free := by
  rfl
@[simp] theorem replied_resetLow (tag : BitVec 16) (code : Byte) (status : Code) (data : List Byte) (s : State) : (replied tag code status data s).resetLow = s.resetLow := by
  rfl
@[simp] theorem replied_startingUp (tag : BitVec 16) (code : Byte) (status : Code) (data : List Byte) (s : State) : (replied tag code status data s).startingUp = s.startingUp := by
  rfl
@[simp] theorem replied_part (tag : BitVec 16) (code : Byte) (status : Code) (data : List Byte) (s : State) : (replied tag code status data s).part = s.part := by
  rfl
@[simp] theorem replied_calFault (tag : BitVec 16) (code : Byte) (status : Code) (data : List Byte) (s : State) : (replied tag code status data s).calFault = s.calFault := by
  rfl
@[simp] theorem replied_segs (tag : BitVec 16) (code : Byte) (status : Code) (data : List Byte) (s : State) : (replied tag code status data s).segs = s.segs := by
  rfl
@[simp] theorem replied_profs (tag : BitVec 16) (code : Byte) (status : Code) (data : List Byte) (s : State) : (replied tag code status data s).profs = s.profs := by
  rfl
@[simp] theorem replied_chans (tag : BitVec 16) (code : Byte) (status : Code) (data : List Byte) (s : State) : (replied tag code status data s).chans = s.chans := by
  rfl
@[simp] theorem replied_groups (tag : BitVec 16) (code : Byte) (status : Code) (data : List Byte) (s : State) : (replied tag code status data s).groups = s.groups := by
  rfl
@[simp] theorem replied_ckc (tag : BitVec 16) (code : Byte) (status : Code) (data : List Byte) (s : State) : (replied tag code status data s).ckc = s.ckc := by
  rfl
@[simp] theorem replied_lrx (tag : BitVec 16) (code : Byte) (status : Code) (data : List Byte) (s : State) : (replied tag code status data s).lrx = s.lrx := by
  rfl
@[simp] theorem replied_cmdQ (tag : BitVec 16) (code : Byte) (status : Code) (data : List Byte) (s : State) : (replied tag code status data s).cmdQ = s.cmdQ := by
  rfl
@[simp] theorem replied_mgu (tag : BitVec 16) (code : Byte) (status : Code) (data : List Byte) (s : State) : (replied tag code status data s).mgu = s.mgu := by
  rfl
@[simp] theorem replied_slots (tag : BitVec 16) (code : Byte) (status : Code) (data : List Byte) (s : State) : (replied tag code status data s).slots = s.slots := by
  rfl
@[simp] theorem replied_events (tag : BitVec 16) (code : Byte) (status : Code) (data : List Byte) (s : State) : (replied tag code status data s).events = s.events := by
  rfl
@[simp] theorem replied_mask (tag : BitVec 16) (code : Byte) (status : Code) (data : List Byte) (s : State) : (replied tag code status data s).mask = s.mask := by
  rfl
@[simp] theorem replied_cal (tag : BitVec 16) (code : Byte) (status : Code) (data : List Byte) (s : State) : (replied tag code status data s).cal = s.cal := by
  rfl
@[simp] theorem replied_store (tag : BitVec 16) (code : Byte) (status : Code) (data : List Byte) (s : State) : (replied tag code status data s).store = s.store := by
  rfl
@[simp] theorem replied_ldw (tag : BitVec 16) (code : Byte) (status : Code) (data : List Byte) (s : State) : (replied tag code status data s).ldw = s.ldw := by
  rfl
@[simp] theorem replied_retire (tag : BitVec 16) (code : Byte) (status : Code) (data : List Byte) (s : State) : (replied tag code status data s).retire = s.retire := by
  rfl
@[simp] theorem replied_init (tag : BitVec 16) (code : Byte) (status : Code) (data : List Byte) (s : State) : (replied tag code status data s).init = s.init := by
  rfl

@[simp] theorem controlTaken_replies (s : State) : (controlTaken s).ltx.replies = s.ltx.replies := rfl

@[simp] theorem controlTaken_chan (s : State) (c : Chan) : (controlTaken s).chan c = s.chan c := rfl

@[simp] theorem controlTaken_seg (s : State) (i : Nat) : (controlTaken s).seg i = s.seg i := rfl

@[simp] theorem controlTaken_profile (s : State) (i : BitVec 8) : (controlTaken s).profile i = s.profile i := rfl

@[simp] theorem controlTaken_bank (s : State) (b : BankNo) : (controlTaken s).bank b = s.bank b := rfl

/-! ### Replies and the take (R157, R160) -/

theorem handReply_of_room (r : Reply) (s : State) (h : s.ltx.replies.length < 4) :
    handReply r s = { s with ltx := { s.ltx with replies := s.ltx.replies ++ [r] }, mgu := .available } := by
  simp [handReply, h]

theorem handReply_of_full (r : Reply) (s : State) (h : ¬s.ltx.replies.length < 4) :
    handReply r s = { s with mgu := .replyHeld r } := by
  simp [handReply, h]

/-- With the command queue empty the MGU takes nothing more. -/
theorem drain_of_empty (n : Nat) (s : State) (h : s.cmdQ = []) : drain n s = s := by
  cases n with
  | zero => rfl
  | succ n => simp [drain, h]

/-- A good control cell that meets a part that is Ready is taken in the same act, with no other cell behind it. -/
theorem controlCell_of_ready (cell : CtlCell) (s : State) (h : Ready s) :
    receiveGood (.control cell) s = answerOp cell.tag (opCodeByte cell.op) (runOp cell (controlTaken s)) := by
  obtain ⟨-, hs, hd, hm, hq, -⟩ := h
  have hb : ({ controlTaken s with cmdQ := [] } : State) = controlTaken s := by
    have : (controlTaken s).cmdQ = [] := hq
    rw [← this]
  have step : receiveGood (.control cell) s = drain 1 { countReceived .control (syncGood s) with cmdQ := [cell] } := by
    simp [receiveGood, hd, dispatch, controlArrives, hq, takeAll]
  rw [step]
  have free : mguFree { countReceived .control (syncGood s) with cmdQ := [cell] } = true := by
    simp [mguFree, hs, hm]
  simp only [drain, free, if_true, takeCell]
  exact congrArg (fun t => answerOp cell.tag (opCodeByte cell.op) (runOp cell t)) hb

/-- A reply composed while the reply queue has room and the MGU is AVAILABLE is the queue's new tail (R160). -/
theorem answerOp_replied (tag : BitVec 16) (code : Byte) (status : Code) (data : List Byte) (t : State)
    (hr : t.ltx.replies.length < 4) (hm : t.mgu = .available) :
    answerOp tag code { st := t, reply := some (status, data) } = replied tag code status data t := by
  simp only [answerOp, handReply_of_room _ _ hr, replied]
  rw [← hm]

/-- The part as it stands at a take keeps the reply queue's room and the MGU's state. -/
theorem controlTaken_room (s : State) (h : Ready s) :
    (controlTaken s).ltx.replies.length < 4 ∧ (controlTaken s).mgu = .available :=
  ⟨h.2.2.2.2.2, h.2.2.2.1⟩

/-- An operation whose reply is composed at its take, over a state that keeps the replies and the MGU. -/
theorem controlCell_answers (cell : CtlCell) (s t : State) (status : Code) (data : List Byte) (h : Ready s)
    (hrun : runOp cell (controlTaken s) = { st := t, reply := some (status, data) })
    (hr : t.ltx.replies = s.ltx.replies) (hm : t.mgu = s.mgu) :
    receiveGood (.control cell) s = replied cell.tag (opCodeByte cell.op) status data t := by
  rw [controlCell_of_ready cell s h, hrun]
  exact answerOp_replied _ _ _ _ _ (by rw [hr]; exact h.2.2.2.2.2) (by rw [hm]; exact h.2.2.2.1)

/-- What a command that carries an operation answers at a part that is Ready and ACTIVE: the operation's own rule over
the part as it stands at the take. -/
theorem exec_of_rule {i : Instr} {tag : BitVec 16} {op : Op} {s t : State} {status : Code} {data : List Byte}
    (h : ReadyActive s) (hexec : exec i s = powered (controlCellWith tag op) s)
    (hcommon : commonRefusal op (controlTaken s) = none)
    (hrule : ownRule tag op (controlTaken s) = { st := t, reply := some (status, data) })
    (hr : t.ltx.replies = s.ltx.replies) (hm : t.mgu = s.mgu) :
    exec i s = .next (replied tag (opCodeByte op) status data t) := by
  have hrun : runOp { tag := tag, op := op } (controlTaken s) = { st := t, reply := some (status, data) } := by
    simp only [runOp, hcommon, hrule]
  have := controlCell_answers { tag := tag, op := op } s t status data h.1 hrun hr hm
  rw [hexec]
  simp only [powered, h.1.1, controlCellWith, this, Bool.false_eq_true, if_false]

/-- As `exec_of_rule` for an operation whose rule refuses it. -/
theorem exec_of_refusal {i : Instr} {tag : BitVec 16} {op : Op} {s : State} {status : Code}
    (h : ReadyActive s) (hexec : exec i s = powered (controlCellWith tag op) s)
    (hcommon : commonRefusal op (controlTaken s) = none)
    (hrule : ownRule tag op (controlTaken s) = refuse status (controlTaken s)) :
    exec i s = .next (replied tag (opCodeByte op) status [] (controlTaken s)) :=
  exec_of_rule h hexec hcommon hrule rfl rfl

/-! ### Upstream cells and sample periods (R153, R177) -/

/-- During start-up, with no reply queued, a cell that starts is fill (R173, R181). -/
theorem upstreamStarts_fill (s : State) (hr : s.ltx.replies = []) (hs : s.startingUp = true) :
    upstreamStarts s = sendCell 15 [] s := by
  unfold upstreamStarts
  rw [hr]
  cases s.events <;> simp [hs]

/-- A period in LOCKED is a start tick where a group is pending, and the step on an empty queue in any case (R40). -/
theorem startTickNow_locked (s : State) (h : s.ckc.st = .locked) :
    startTickNow s = if anyPending s then lockedPeriod s else s := by
  unfold startTickNow; rw [h]

theorem samplePeriod_locked (s : State) (hr : s.resetLow = false) (h : s.ckc.st = .locked) :
    samplePeriod s = lockedPeriod s := by
  unfold samplePeriod; simp [hr, h]

/-! ### Postings (R172) -/

/-- A posting whose pair is queued raises that entry's repeat count and changes nothing else of the queue (R172). -/
theorem foldEvent_queued {src : Source} {kind : Kind} (detail : BitVec 32) (status : Code) {pre rest : List EvEntry}
    {e : EvEntry} (h : e.src = src ∧ e.kind = kind) (hp : ∀ x ∈ pre, ¬(x.src = src ∧ x.kind = kind)) :
    foldEvent src kind detail status (pre ++ e :: rest) = pre ++ { e with count := repeatInc e.count } :: rest := by
  induction pre with
  | nil => simp [foldEvent, h]
  | cons x pre ih => simp [foldEvent, hp x (.head _), ih fun y hy => hp y (.tail _ hy)]

/-- A posting of a new pair makes an entry at the tail (R172). -/
theorem foldEvent_new {src : Source} {kind : Kind} (detail : BitVec 32) (status : Code) {l : List EvEntry}
    (h : ∀ x ∈ l, ¬(x.src = src ∧ x.kind = kind)) :
    foldEvent src kind detail status l =
      l ++ [{ src := src, kind := kind, count := 1, detail := detail, status := status }] := by
  induction l with
  | nil => rfl
  | cons x l ih => simp [foldEvent, h x (.head _), ih fun y hy => h y (.tail _ hy)]

end Sys2Proof.Machine
end

