-- ==== Sys2Proof/Laws/Banks.lean ====
section
/-! SUPPORT. What a grant decision, a request, the end of a burst and an issue of fetch bursts can change: bank
controllers, and of a channel its burst records (a grant), its cursor and its records (an issue); and what a grant makes of
a bank. -/

namespace Sys2Proof.Machine

/-- A burst record without its state WAITING, GRANTED or RETURNED. -/
def recCore (r : FetchRec) : Bool × Nat × Nat × Nat × Bool := (r.next, r.addr, r.first, r.last, r.discard)

/-- t is s but for bank controllers and for the states of burst records. -/
structure GrantFrame (s t : State) : Prop where
  rest : t = { s with chans := t.chans, store := { s.store with banks := t.store.banks } }
  chan : ∀ c, t.chan c = { s.chan c with fetch := { (s.chan c).fetch with outs := (t.chan c).fetch.outs } }
  outs : ∀ c, (t.chan c).fetch.outs.map recCore = (s.chan c).fetch.outs.map recCore

theorem GrantFrame.refl (s : State) : GrantFrame s s := ⟨rfl, fun _ => rfl, fun _ => rfl⟩

theorem GrantFrame.trans {s t u : State} (h : GrantFrame s t) (k : GrantFrame t u) : GrantFrame s u := by
  refine ⟨?_, fun c => ?_, fun c => (k.outs c).trans (h.outs c)⟩
  · have h1 := h.rest; have k1 := k.rest
    rw [k1, h1]
  · have h1 := h.chan c; have k1 := k.chan c
    rw [k1, h1]

theorem setBank_grantFrame (s : State) (b : BankNo) (k : Bank) : GrantFrame s (s.setBank b k) :=
  ⟨rfl, fun _ => rfl, fun _ => rfl⟩

theorem map_modify_core (l : List FetchRec) (i : Nat) (f : FetchRec → FetchRec) (h : ∀ r, recCore (f r) = recCore r) :
    (l.modify i f).map recCore = l.map recCore := by
  induction l generalizing i with
  | nil => cases i <;> rfl
  | cons a l ih =>
    cases i with
    | zero => simp [List.modify_cons, h]
    | succ i => simp [ih]

theorem grant_grantFrame (b : BankNo) (r : Req) (s : State) : GrantFrame s (grant b r s) := by
  cases r with
  | fetch c a =>
    simp only [grant]
    refine ⟨rfl, fun d => ?_, fun d => ?_⟩
    · by_cases h : d = c
      · subst h; rw [State.chan_setChan_self]
      · rw [State.chan_setChan_of_ne _ _ h]; rfl
    · by_cases h : d = c
      · subst h; rw [State.chan_setChan_self]
        dsimp only
        split
        · exact map_modify_core _ _ _ fun _ => rfl
        · rfl
      · rw [State.chan_setChan_of_ne _ _ h]; rfl
  | loadWrite a => exact setBank_grantFrame _ _ _
  | closeRead a => exact setBank_grantFrame _ _ _
  | mgmtRead a => exact setBank_grantFrame _ _ _
  | retireRead a => exact setBank_grantFrame _ _ _
  | retireWrite p q => exact setBank_grantFrame _ _ _
  | initWrite a => exact setBank_grantFrame _ _ _
  | refresh => exact setBank_grantFrame _ _ _

theorem decideBank_grantFrame (b : BankNo) (s : State) : GrantFrame s (decideBank b s) := by
  unfold decideBank
  split
  · split
    · exact grant_grantFrame _ _ _
    · exact .refl s
  · exact .refl s

theorem request_grantFrame (b : BankNo) (r : Req) (s : State) : GrantFrame s (request b r s) :=
  (setBank_grantFrame _ _ _).trans (decideBank_grantFrame _ _)

theorem reachClosed_grantFrame (b : BankNo) (s : State) : GrantFrame s (reachClosed b s) := by
  unfold reachClosed
  split
  · exact (setBank_grantFrame _ _ _).trans (decideBank_grantFrame _ _)
  · exact setBank_grantFrame _ _ _

theorem endBurst_grantFrame (b : BankNo) (s : State) : GrantFrame s (endBurst b s) := by
  unfold endBurst
  dsimp only
  split
  · exact .refl s
  · split
    · exact setBank_grantFrame _ _ _
    · exact (setBank_grantFrame _ _ _).trans (decideBank_grantFrame _ _)

theorem bank_grant_of_ne {b d : BankNo} (r : Req) (s : State) (h : d ≠ b) : (grant b r s).bank d = s.bank d := by
  cases r <;> exact State.bank_setBank_of_ne _ _ h

/-- A decision at a bank leaves the other banks alone. -/
theorem bank_decideBank_of_ne {b d : BankNo} (s : State) (h : d ≠ b) : (decideBank b s).bank d = s.bank d := by
  unfold decideBank
  split
  · split
    · exact bank_grant_of_ne _ _ h
    · rfl
  · rfl

theorem bank_request_of_ne {b d : BankNo} (r : Req) (s : State) (h : d ≠ b) : (request b r s).bank d = s.bank d := by
  unfold request
  rw [bank_decideBank_of_ne _ h, State.bank_setBank_of_ne _ _ h]

theorem RecordsGranted.refl (l : List FetchRec) : RecordsGranted l l := ⟨rfl, fun _ _ h => .inl h⟩

theorem RecordsGranted.trans {a b c : List FetchRec} (h : RecordsGranted a b) (k : RecordsGranted b c) :
    RecordsGranted a c := by
  refine ⟨k.1.trans h.1, fun i r hr => ?_⟩
  rcases h.2 i r hr with e | ⟨hw, e⟩
  · exact k.2 i r e
  · rcases k.2 i _ e with e' | ⟨hw', _⟩
    · exact .inr ⟨hw, e'⟩
    · cases hw'

theorem OnlyGrants.refl (a : Channel) : OnlyGrants a a := ⟨rfl, .refl _⟩

theorem OnlyGrants.trans {a b c : Channel} (h : OnlyGrants a b) (k : OnlyGrants b c) : OnlyGrants a c := by
  refine ⟨?_, h.2.trans k.2⟩
  have h1 := h.1; have k1 := k.1
  rw [k1, h1]

/-- A decision at a bank grants at most a WAITING record (R100). -/
theorem decideBank_granted (b : BankNo) (s : State) (d : Chan) :
    RecordsGranted (s.chan d).fetch.outs ((decideBank b s).chan d).fetch.outs := by
  unfold decideBank
  split
  · split
    · next r _ =>
      cases r with
      | fetch c a =>
        by_cases h : d = c
        · subst h
          simp only [grant, State.chan_setChan_self]
          split
          · next i hi =>
            have hw := (List.findIdx?_eq_some_iff_getElem.1 hi)
            obtain ⟨hl, hp, _⟩ := hw
            refine ⟨by simp, fun j r hr => ?_⟩
            rw [List.getElem?_modify]
            by_cases e : i = j
            · subst e
              rw [hr]
              have : (s.chan d).fetch.outs[i] = r := by
                rw [List.getElem?_eq_getElem hl] at hr; exact Option.some.inj hr
              rw [this] at hp
              simp only [Bool.and_eq_true, decide_eq_true_eq] at hp
              exact .inr ⟨hp.1, by simp⟩
            · rw [hr]; exact .inl (by simp [e])
          · exact .refl _
        · simp only [grant]
          rw [State.chan_setChan_of_ne _ _ h]
          exact .refl _
      | _ => exact .refl _
    · exact .refl _
  · exact .refl _

/-- A decision at a bank changes a channel by a grant only. -/
theorem decideBank_onlyGrants (b : BankNo) (s : State) (d : Chan) : OnlyGrants (s.chan d) ((decideBank b s).chan d) :=
  ⟨(decideBank_grantFrame b s).chan d, decideBank_granted b s d⟩

/-! ### What a grant makes of a bank (R95, R96, R100) -/

theorem physRow_eq (s : State) (b : BankNo) (row : Nat) : physRow s b row = rowServing s b row := by
  unfold physRow rowServing linkOf
  split <;> next h => rw [h]

theorem beginClosed_eq (s : State) (b : BankNo) (r : Req) : beginClosed s b r = workBegins s b .closed r := by
  cases r <;> simp [beginClosed, workBegins, rowOfBurst, reqRow, physRow_eq, rowOf]

theorem beginGrant_eq (s : State) (b : BankNo) (r : Req) : beginGrant s b r = workBegins s b (s.bank b).ctrl r := by
  cases h : (s.bank b).ctrl <;> cases r <;>
    simp [beginGrant, h, beginClosed, workBegins, rowOfBurst, reqRow, physRow_eq, rowOf]

/-- The bank after a grant. -/
theorem bank_grant (b : BankNo) (r : Req) (s : State) :
    (grant b r s).bank b = match r with
      | .fetch c _ => { bankGranted s b (s.bank b).ctrl r (s.bank b) with rr := c }
      | _ => { bankGranted s b (s.bank b).ctrl r (s.bank b) with waiting := (s.bank b).waiting.erase r } := by
  have h : (grant b r s).bank b = match r with
      | .fetch c _ => { s.bank b with
          ctrl := beginGrant s b r, rr := c
          work := some { req := r, closePage := decide (s.store.policy = .closePage), closeAfter := false } }
      | _ => { s.bank b with
          ctrl := beginGrant s b r, waiting := (s.bank b).waiting.erase r
          work := some { req := r, closePage := decide (s.store.policy = .closePage), closeAfter := false } } := by
    cases r <;> exact State.bank_setBank_self _ _ _
  rw [h, beginGrant_eq]
  cases r <;> rfl

/-- What a decision takes from the requests of one fetch class. -/
theorem fetchChoice_some {s : State} {b : BankNo} {w : Bool} {r : Req} (h : fetchChoice s b w = some r) :
    ∃ c a, r = .fetch c a ∧ bankOf a = b := by
  unfold fetchChoice at h
  obtain ⟨c, -, hc⟩ := List.exists_of_findSome?_eq_some h
  dsimp only at hc
  split at hc
  · split at hc
    · next i hi =>
      obtain ⟨hl, hp, -⟩ := List.findIdx?_eq_some_iff_getElem.1 hi
      rw [List.getElem?_eq_getElem hl] at hc
      simp only [Bool.and_eq_true, decide_eq_true_eq] at hp
      exact ⟨c, _, (Option.some.inj hc).symm, hp.2⟩
    · cases hc
  · cases hc

/-- The request that a decision chooses waits at the bank, is the refresh that the debt asks for, or is a fetch burst. -/
theorem choose_some {s : State} {b : BankNo} {r : Req} (h : choose s b = some r) :
    ((∀ c a, r ≠ .fetch c a) ∧ (r ∈ (s.bank b).waiting ∨ (r = .refresh ∧ 1 ≤ (s.bank b).debt))) ∨
      ∃ c a, r = .fetch c a ∧ bankOf a = b := by
  have listed : ∀ n, n ≠ 4 → (s.bank b).waiting.find? (fun q => decide (reqClass q = n)) = some r →
      (∀ c a, r ≠ .fetch c a) ∧ r ∈ (s.bank b).waiting := by
    intro n hn hf
    refine ⟨?_, List.mem_of_find?_eq_some hf⟩
    rintro c a rfl
    have := List.find?_some hf
    exact hn (of_decide_eq_true this).symm
  unfold choose at h
  dsimp only at h
  split at h
  · next hd =>
    cases h
    exact .inl ⟨nofun, .inr ⟨rfl, by omega⟩⟩
  · rcases Option.or_eq_some_iff.1 h with h | ⟨-, h⟩
    · exact .inr (fetchChoice_some h)
    rcases Option.or_eq_some_iff.1 h with h | ⟨-, h⟩
    · exact .inl ⟨(listed 3 (by decide) h).1, .inl (listed 3 (by decide) h).2⟩
    rcases Option.or_eq_some_iff.1 h with h | ⟨-, h⟩
    · exact .inr (fetchChoice_some h)
    rcases Option.or_eq_some_iff.1 h with h | ⟨-, h⟩
    · exact .inl ⟨(listed 5 (by decide) h).1, .inl (listed 5 (by decide) h).2⟩
    split at h
    · next hd => cases h; exact .inl ⟨nofun, .inr ⟨rfl, hd⟩⟩
    · cases h

theorem GrantsOnly.same {s t : State} {b : BankNo} (h : t.bank b = s.bank b) : GrantsOnly s t b := .inl h

theorem GrantsOnly.refl (s : State) (b : BankNo) : GrantsOnly s s b := .inl rfl

/-- What a decision at a bank can make of the banks. -/
theorem decideBank_grantsOnly (b d : BankNo) (s : State) : GrantsOnly s (decideBank b s) d := by
  by_cases hd : d = b
  · subst hd
    unfold decideBank
    split
    · next hf =>
      split
      · next r hr =>
        simp only [Bank.isFree, Bool.and_eq_true, Option.isNone_iff_eq_none, decide_eq_true_eq] at hf
        obtain ⟨⟨⟨hw, hc⟩, hp⟩, -⟩ := hf
        refine .inr ⟨hw, hp, ?_, ?_⟩
        · split at hc
          · next e => exact .inl e
          · next row e => exact .inr ⟨row, e⟩
          · cases hc
        · have hb := bank_grant d r s
          rcases choose_some hr with ⟨hn, hq⟩ | ⟨c, a, rfl, ha⟩
          · refine .inl ⟨r, hq, ?_⟩
            rw [hb]
            cases r <;> first | rfl | exact absurd rfl (hn _ _)
          · exact .inr ⟨c, a, ha, hb⟩
      · exact .refl s d
    · exact .refl s d
  · exact .same (bank_decideBank_of_ne s hd)

/-- Grants read nothing but the bank, the part's state, the policy and the links, and one grant leaves the bank busy. -/
theorem GrantsOnly.trans {s t u : State} {b : BankNo} (h : GrantsOnly s t b) (k : GrantsOnly t u b)
    (hp : t.part = s.part) (hs : t.store = { s.store with banks := t.store.banks }) : GrantsOnly s u b := by
  have hl : t.store.links = s.store.links := by rw [hs]
  have hq : t.store.policy = s.store.policy := by rw [hs]
  have hg : ∀ before r x, bankGranted t b before r x = bankGranted s b before r x := by
    intro before r x
    have hr : ∀ row, rowServing t b row = rowServing s b row := fun row => by unfold rowServing; rw [hl]
    have ho : rowOfBurst t b r = rowOfBurst s b r := by cases r <;> simp [rowOfBurst, hr]
    simp only [bankGranted, workBegins, ho, hq]
  rcases h with h | ⟨hw, hpa, hc, h⟩
  · rcases k with k | ⟨kw, kp, kc, k⟩
    · exact .inl (k.trans h)
    · simp only [hg, h] at kw kc k
      exact .inr ⟨kw, hp.symm.trans kp, kc, k⟩
  · have busy : (t.bank b).work ≠ none := by
      rcases h with ⟨r, -, e⟩ | ⟨c, a, -, e⟩ <;> simp [e, bankGranted]
    rcases k with k | ⟨kw, -, -, -⟩
    · exact .inr ⟨hw, hpa, hc, by rw [k]; exact h⟩
    · exact absurd kw busy

/-- Beside bank controllers, an issue of fetch bursts changes only the burst records and one channel's cursor. -/
structure IssueFrame (c : Chan) (s t : State) : Prop where
  rest : t = { s with chans := t.chans, store := { s.store with banks := t.store.banks } }
  self : t.chan c = { s.chan c with fetch := { (s.chan c).fetch with
    outs := (t.chan c).fetch.outs, cursor := (t.chan c).fetch.cursor } }
  others : ∀ d, d ≠ c → OnlyGrants (s.chan d) (t.chan d)
  banks : ∀ b, GrantsOnly s t b

theorem IssueFrame.refl (c : Chan) (s : State) : IssueFrame c s s := ⟨rfl, rfl, fun _ _ => .refl _, .refl s⟩

theorem IssueFrame.trans {c : Chan} {s t u : State} (h : IssueFrame c s t) (k : IssueFrame c t u) :
    IssueFrame c s u := by
  refine ⟨?_, ?_, fun d e => (h.others d e).trans (k.others d e),
    fun b => (h.banks b).trans (k.banks b) (by rw [h.rest]) (by rw [h.rest])⟩
  · have h1 := h.rest; have k1 := k.rest
    rw [k1, h1]
  · have h1 := h.self; have k1 := k.self
    rw [k1, h1]

theorem decideBank_issueFrame (c : Chan) (b : BankNo) (s : State) : IssueFrame c s (decideBank b s) := by
  have h := decideBank_grantFrame b s
  refine ⟨h.rest, ?_, fun d _ => decideBank_onlyGrants b s d, fun d => decideBank_grantsOnly b d s⟩
  have := h.chan c
  rw [this]

theorem setFetch_issueFrame (c : Chan) (s : State) (outs : List FetchRec) (k : Option Cursor) :
    IssueFrame c s (s.setFetch c { (s.chan c).fetch with outs := outs, cursor := k }) := by
  refine ⟨rfl, ?_, fun d h => ?_, fun b => .same rfl⟩
  · simp [State.setFetch]
  · simp only [State.setFetch]; rw [State.chan_setChan_of_ne _ _ h]; exact .refl _

theorem presentNext_issueFrame (c : Chan) (s : State) : IssueFrame c s (presentNext c s) := by
  simp only [presentNext]
  split
  · split
    · exact .refl c s
    · exact setFetch_issueFrame c s _ _
  · exact .refl c s

theorem issueOne_issueFrame (c : Chan) (s : State) : IssueFrame c s (issueOne c s) := by
  simp only [issueOne]
  split
  · exact .refl c s
  · split
    · exact .refl c s
    · split
      · exact ((setFetch_issueFrame c s _ _).trans (presentNext_issueFrame c _)).trans
          (decideBank_issueFrame c _ _)
      · exact .refl c s

/-- What the Fetch Unit's issue (R105) leaves alone. -/
theorem fetchIssue_issueFrame (c : Chan) (s : State) : IssueFrame c s (fetchIssue c s) :=
  (presentNext_issueFrame c s).trans ((issueOne_issueFrame c _).trans (issueOne_issueFrame c _))

/-- Where the cursor goes when its burst is issued, as the statements say it (R104). -/
theorem cursorAfter_eq (d : Desc) (k : Cursor) : cursorAfter d k = cursorBehind d k := by
  unfold cursorAfter cursorBehind burstLast
  by_cases hl : min (k.idx / 16 * 16 + 15) (d.length - 1) + 1 < d.length
  · simp only [if_pos hl]
  · simp only [if_neg hl]
    by_cases h0 : k.passes = 0
    · simp [h0]
    · by_cases h1 : k.passes = 1
      · simp [h1]
      · have a : k.passes.toNat ≠ 0 := fun e => h0 (BitVec.eq_of_toNat_eq e)
        have b : k.passes.toNat ≠ 1 := fun e => h1 (BitVec.eq_of_toNat_eq e)
        have hn : 1 < k.passes.toNat := by omega
        simp only [if_neg h0, if_neg h1, if_pos hn]

end Sys2Proof.Machine
end

