-- ==== Sys2Proof/Laws/Tables.lean ====
section
/-! SUPPORT. The sparse tables: a read after a write, and the canonical form, which every operation on the pattern store's
contents keeps; and the use counts of the directory after entries have left. -/

namespace Sys2Proof.Machine

variable {α : Type}

/-! ### Reads after writes -/

@[simp] theorem tableGet_tablePut_self (l : List (Nat × α)) (a : Nat) (v : α) :
    tableGet (tablePut l a v) a = some v := by
  induction l with
  | nil => simp [tablePut, tableGet]
  | cons p l ih =>
    obtain ⟨k, w⟩ := p
    simp only [tablePut]
    split
    · simp [tableGet]
    · split
      · simp [tableGet]
      · simp_all [tableGet]

theorem tableGet_tablePut_of_ne (l : List (Nat × α)) {a n : Nat} (v : α) (h : n ≠ a) :
    tableGet (tablePut l a v) n = tableGet l n := by
  induction l with
  | nil => simp [tablePut, tableGet, h]
  | cons p l ih =>
    obtain ⟨k, w⟩ := p
    simp only [tablePut]
    split
    · simp [tableGet, h]
    · split
      · next e => subst e; simp [tableGet, h]
      · simp only [tableGet]; split
        · rfl
        · exact ih

theorem tableGet_tableErase_of_ne (l : List (Nat × α)) {a n : Nat} (h : n ≠ a) :
    tableGet (tableErase l a) n = tableGet l n := by
  induction l with
  | nil => rfl
  | cons p l ih =>
    obtain ⟨k, w⟩ := p
    simp only [tableErase]
    split
    · next e => subst e; simp [tableGet, h]
    · simp only [tableGet]; split
      · rfl
      · exact ih

/-! ### The canonical form -/

theorem tableWf_cons {p : Nat × α} {l : List (Nat × α)} :
    tableWf (p :: l) = true ↔ (∀ q, l.head? = some q → p.1 < q.1) ∧ tableWf l = true := by
  cases l with
  | nil => simp [tableWf]
  | cons q l => simp [tableWf]

theorem tablePut_head? (l : List (Nat × α)) (a : Nat) (v : α) (q : Nat × α)
    (h : (tablePut l a v).head? = some q) : q = (a, v) ∨ l.head? = some q := by
  cases l with
  | nil => simp_all [tablePut]
  | cons p l =>
    obtain ⟨k, w⟩ := p
    simp only [tablePut] at h
    split at h
    · simp_all
    · split at h <;> simp_all

theorem tableWf_tablePut (l : List (Nat × α)) (a : Nat) (v : α) (h : tableWf l = true) :
    tableWf (tablePut l a v) = true := by
  induction l with
  | nil => rfl
  | cons p l ih =>
    obtain ⟨k, w⟩ := p
    obtain ⟨h1, h2⟩ := tableWf_cons.1 h
    simp only [tablePut]
    split
    · exact tableWf_cons.2 ⟨by simpa using ‹a < k›, h⟩
    · split
      · next e => subst e; exact tableWf_cons.2 ⟨h1, h2⟩
      · refine tableWf_cons.2 ⟨fun q e => ?_, ih h2⟩
        rcases tablePut_head? _ _ _ _ e with rfl | e
        · simp only; omega
        · exact h1 q e

/-- In a canonical table every key is above the head's. -/
theorem tableWf_tail_lt {p : Nat × α} {l : List (Nat × α)} (h : tableWf (p :: l) = true) :
    ∀ q ∈ l, p.1 < q.1 := by
  induction l generalizing p with
  | nil => simp
  | cons r l ih =>
    obtain ⟨h1, h2⟩ := tableWf_cons.1 h
    have hr := h1 r rfl
    intro q hq
    rcases List.mem_cons.1 hq with rfl | hq
    · exact hr
    · exact lt_trans hr (ih h2 q hq)

theorem mem_of_mem_tableErase {l : List (Nat × α)} {a : Nat} {q : Nat × α} (h : q ∈ tableErase l a) : q ∈ l := by
  induction l with
  | nil => simp [tableErase] at h
  | cons p l ih =>
    obtain ⟨k, w⟩ := p
    simp only [tableErase] at h
    split at h
    · exact List.mem_cons_of_mem _ h
    · rcases List.mem_cons.1 h with rfl | h
      · exact List.mem_cons_self
      · exact List.mem_cons_of_mem _ (ih h)

theorem tableWf_tableErase (l : List (Nat × α)) (a : Nat) (h : tableWf l = true) :
    tableWf (tableErase l a) = true := by
  induction l with
  | nil => rfl
  | cons p l ih =>
    obtain ⟨k, w⟩ := p
    have h2 := (tableWf_cons.1 h).2
    simp only [tableErase]
    split
    · exact h2
    · refine tableWf_cons.2 ⟨fun q e => ?_, ih h2⟩
      exact tableWf_tail_lt h q (mem_of_mem_tableErase (List.mem_of_mem_head? e))

@[simp] theorem tableGet_tableErase_self (l : List (Nat × α)) (a : Nat) (h : tableWf l = true) :
    tableGet (tableErase l a) a = none := by
  induction l with
  | nil => rfl
  | cons p l ih =>
    obtain ⟨k, w⟩ := p
    simp only [tableErase]
    split
    · next e =>
      subst e
      have hlt := tableWf_tail_lt h
      clear ih h
      induction l with
      | nil => rfl
      | cons q l ih =>
        obtain ⟨j, x⟩ := q
        have := hlt (j, x) List.mem_cons_self
        simp only at this
        simp only [tableGet]
        rw [if_neg (by omega)]
        exact ih fun r hr => hlt r (List.mem_cons_of_mem _ hr)
    · next e => simp only [tableGet]; rw [if_neg e]; exact ih (tableWf_cons.1 h).2

/-! ### The pattern store's contents (R101, R122) -/

/-- The canonical form of the store's contents. -/
abbrev MemWf (s : State) : Prop := tableWf s.store.mem = true

theorem reset_memWf : MemWf State.reset := rfl

theorem foldl_keeps {β γ : Type} {P : β → Prop} {f : β → γ → β} (hf : ∀ b c, P b → P (f b c)) (l : List γ) (b : β)
    (h : P b) : P (l.foldl f b) := by
  induction l generalizing b with
  | nil => exact h
  | cons c l ih => exact ih _ (hf b c h)

theorem writeGroup_memWf (key : Nat) (d : BitVec 64) (s : State) (h : MemWf s) : MemWf (writeGroup key d s) :=
  tableWf_tablePut _ _ _ h

theorem writeBurst_memWf (b : BankNo) (prow col : Nat) (p : Payload) (s : State) (h : MemWf s) :
    MemWf (writeBurst b prow col p s) :=
  foldl_keeps (fun t _ ht => writeGroup_memWf _ _ t ht) _ s h

theorem undefineBurst_memWf (b : BankNo) (prow col : Nat) (s : State) (h : MemWf s) :
    MemWf (undefineBurst b prow col s) :=
  foldl_keeps (P := MemWf) (fun t _ ht => tableWf_tableErase t.store.mem _ ht) _ s h

theorem readGroup_memWf (key : Nat) (flip : BitVec 72) (s : State) (h : MemWf s) :
    MemWf (readGroup key flip s).1 := by
  have h2 : ∀ g, MemWf (if flip = 0 then s else s.setMem (tablePut s.store.mem key g)) := by
    intro g; split
    · exact h
    · exact tableWf_tablePut _ _ _ h
  unfold readGroup
  split
  · exact h
  · dsimp only
    split
    · exact h2 _
    · exact h2 _
    · exact h2 _
    · exact h2 _

theorem updateWeak_mem (b : BankNo) (row : Nat) (bad : Bool) (s : State) :
    (updateWeak b row bad s).store.mem = s.store.mem := by
  unfold updateWeak
  split
  · dsimp only; split <;> simp
  · rfl

theorem recordOutcome_mem (rq : Requester) (b : BankNo) (prow addr : Nat) (e : Ecc) (s : State) :
    (recordOutcome rq b prow addr e s).store.mem = s.store.mem := by
  unfold recordOutcome
  split
  · rfl
  · rw [updateWeak_mem]; rfl
  · rw [updateWeak_mem]; simp

theorem readBurst_memWf (rq : Requester) (b : BankNo) (prow addr : Nat) (flips : Flips) (s : State) (h : MemWf s) :
    MemWf (readBurst rq b prow addr flips s).1 :=
  foldl_keeps (P := fun x : State × List (BitVec 64 × Ecc) => MemWf x.1)
    (fun x g hx => by
      unfold MemWf
      dsimp only
      rw [recordOutcome_mem]
      exact readGroup_memWf _ _ _ hx) _ _ h

/-- A written group reads back its words, CLEAN, and no other group changes (R101). -/
theorem readGroup_writeGroup (key : Nat) (d : BitVec 64) (s : State) :
    (readGroup key 0 (writeGroup key d s)).2 = (d, .clean) := by
  have hw : wrongBits 0#72 = 0 := by decide
  simp [readGroup, writeGroup, State.setMem, hw]

theorem writeGroup_of_ne (key : Nat) (d : BitVec 64) (s : State) {n : Nat} (h : n ≠ key) :
    tableGet (writeGroup key d s).store.mem n = tableGet s.store.mem n :=
  tableGet_tablePut_of_ne _ _ h

/-! ### Use counts (R3, R4) -/

/-- A use count lowered once. -/
theorem seg_lowerUse (i : BitVec 16) (s : State) (n : Nat) :
    (lowerUse i s).seg n = (s.seg n).map fun d => if n = i.toNat then { d with use := d.use - 1 } else d := by
  unfold lowerUse changeUse
  split
  · next h =>
    by_cases e : n = i.toNat
    · subst e; simp [h]
    · simp [e]
  · next d h =>
    by_cases e : n = i.toNat
    · subst e
      rw [h]
      simp [State.seg]
    · simp [e, State.seg, tableGet_tablePut_of_ne _ _ e]

/-- The use counts after the entries of a list have left (R4). -/
theorem seg_lowerAll (q : List Entry) (s : State) (n : Nat) :
    (q.foldl (fun s e => lowerUse e.seg s) s).seg n = useWithout s q n := by
  induction q generalizing s with
  | nil => simp [useWithout]
  | cons e q ih =>
    rw [List.foldl_cons, ih]
    unfold useWithout
    rw [seg_lowerUse]
    cases s.seg n with
    | none => rfl
    | some d =>
      by_cases h : n = e.seg.toNat
      · simp [h, Nat.sub_sub, Nat.add_comm]
      · have h' : ¬e.seg.toNat = n := fun x => h x.symm
        simp [h, h']

end Sys2Proof.Machine
end

