-- ==== Sys2Proof/Laws/Bursts.lean ====
section
/-! SUPPORT. What bursts do: a write burst's four groups, the reading of a group whose wrong bits are known, what an
outcome's record changes, and that a request that reaches an arbiter stays waiting or is granted. -/

namespace Sys2Proof.Machine

/-! ### Write bursts (R101) -/

theorem groupKey_ne {b : BankNo} {p c c' : Nat} (h : c / 4 ≠ c' / 4) : groupKey b p c ≠ groupKey b p c' := by
  unfold groupKey; omega

/-- A write burst changes the store's contents and nothing else. -/
theorem writeBurst_frame (b : BankNo) (prow col : Nat) (p : Payload) (s : State) :
    writeBurst b prow col p s = s.setMem (writeBurst b prow col p s).store.mem := rfl

/-- The four groups of a write burst, each with fresh check bits. -/
theorem writeBurst_get (b : BankNo) (prow col : Nat) (p : Payload) (s : State) (g : Nat) (h : g < 4) :
    tableGet (writeBurst b prow col p s).store.mem (groupKey b prow (col + 4 * g)) =
      some { data := payloadGroup p g, wrong := 0 } := by
  have e : (writeBurst b prow col p s).store.mem =
      tablePut (tablePut (tablePut (tablePut s.store.mem
        (groupKey b prow (col + 4 * 0)) { data := payloadGroup p 0, wrong := 0 })
        (groupKey b prow (col + 4 * 1)) { data := payloadGroup p 1, wrong := 0 })
        (groupKey b prow (col + 4 * 2)) { data := payloadGroup p 2, wrong := 0 })
        (groupKey b prow (col + 4 * 3)) { data := payloadGroup p 3, wrong := 0 } := rfl
  rw [e]
  have k : ∀ i j : Nat, i ≠ j → groupKey b prow (col + 4 * i) ≠ groupKey b prow (col + 4 * j) :=
    fun i j n => groupKey_ne (by omega)
  obtain rfl | rfl | rfl | rfl : g = 0 ∨ g = 1 ∨ g = 2 ∨ g = 3 := by omega
  · rw [tableGet_tablePut_of_ne _ _ (k 0 3 (by decide)), tableGet_tablePut_of_ne _ _ (k 0 2 (by decide)),
      tableGet_tablePut_of_ne _ _ (k 0 1 (by decide)), tableGet_tablePut_self]
  · rw [tableGet_tablePut_of_ne _ _ (k 1 3 (by decide)), tableGet_tablePut_of_ne _ _ (k 1 2 (by decide)),
      tableGet_tablePut_self]
  · rw [tableGet_tablePut_of_ne _ _ (k 2 3 (by decide)), tableGet_tablePut_self]
  · rw [tableGet_tablePut_self]

/-- Every other group stays. -/
theorem writeBurst_get_of_ne (b : BankNo) (prow col : Nat) (p : Payload) (s : State) (n : Nat)
    (h : ∀ g, g < 4 → n ≠ groupKey b prow (col + 4 * g)) :
    tableGet (writeBurst b prow col p s).store.mem n = tableGet s.store.mem n := by
  have e : (writeBurst b prow col p s).store.mem =
      tablePut (tablePut (tablePut (tablePut s.store.mem
        (groupKey b prow (col + 4 * 0)) { data := payloadGroup p 0, wrong := 0 })
        (groupKey b prow (col + 4 * 1)) { data := payloadGroup p 1, wrong := 0 })
        (groupKey b prow (col + 4 * 2)) { data := payloadGroup p 2, wrong := 0 })
        (groupKey b prow (col + 4 * 3)) { data := payloadGroup p 3, wrong := 0 } := rfl
  rw [e, tableGet_tablePut_of_ne _ _ (h 3 (by decide)), tableGet_tablePut_of_ne _ _ (h 2 (by decide)),
    tableGet_tablePut_of_ne _ _ (h 1 (by decide)), tableGet_tablePut_of_ne _ _ (h 0 (by decide))]

/-! ### Reading a group (R122) -/

/-- The words that a group with at most two wrong bits delivers. -/
def deliveredWords (d : BitVec 64) (w : BitVec 72) : BitVec 64 :=
  if wrongBits w = 2 then d ^^^ w.setWidth 64 else d

/-- The outcome of a group with at most two wrong bits. -/
def knownOutcome (w : BitVec 72) : Ecc :=
  if wrongBits w = 0 then .clean else if wrongBits w = 1 then .corrected else .uncorrectable

/-- A group of known contents with at most two wrong bits is read: its words, its outcome, and the wrong bits kept. -/
theorem readGroup_known (key : Nat) (flip : BitVec 72) (s : State) (d : BitVec 64) (w : BitVec 72)
    (h : tableGet s.store.mem key = some { data := d, wrong := w }) (hw : wrongBits (w ^^^ flip) ≤ 2) :
    readGroup key flip s =
      (if flip = 0 then s else s.setMem (tablePut s.store.mem key { data := d, wrong := w ^^^ flip }),
        deliveredWords d (w ^^^ flip), knownOutcome (w ^^^ flip)) := by
  unfold readGroup
  rw [h]
  dsimp only
  have : wrongBits (w ^^^ flip) = 0 ∨ wrongBits (w ^^^ flip) = 1 ∨ wrongBits (w ^^^ flip) = 2 := by omega
  rcases this with e | e | e <;> simp [e, deliveredWords, knownOutcome, asRead]

/-- A CORRECTED outcome of a group with more wrong bits delivers the words as read but for one bit, or as read where the
bit is a check bit (R122). -/
theorem correctedAt_eq (g : Grp) (bit : Fin 72) :
    correctedAt g bit = asRead g ^^^ (1#72 <<< bit.val).setWidth 64 := by
  simp [correctedAt, asRead, BitVec.setWidth_xor, BitVec.xor_assoc]

/-- A group of known contents with more than two wrong bits is read: a free outcome, with the words that it delivers. -/
theorem readGroup_many (key : Nat) (flip : BitVec 72) (s : State) (d : BitVec 64) (w : BitVec 72)
    (h : tableGet s.store.mem key = some { data := d, wrong := w }) (hw : 2 < wrongBits (w ^^^ flip)) :
    (readGroup key flip s).2 =
      (deliveredAs { data := d, wrong := w ^^^ flip } (Config.freeEcc s.free) s.free, Config.freeEcc s.free) := by
  unfold readGroup
  rw [h]
  dsimp only
  split
  · next e => omega
  · next e => omega
  · next e => omega
  · split <;> rfl

/-- After such a read the group holds its words with the wrong bits as they now are. -/
theorem readGroup_known_self (key : Nat) (flip : BitVec 72) (s : State) (d : BitVec 64) (w : BitVec 72)
    (h : tableGet s.store.mem key = some { data := d, wrong := w }) (hw : wrongBits (w ^^^ flip) ≤ 2) :
    tableGet (readGroup key flip s).1.store.mem key = some { data := d, wrong := w ^^^ flip } := by
  rw [readGroup_known key flip s d w h hw]
  dsimp only
  split
  · next e => subst e; rw [h]; simp
  · exact tableGet_tablePut_self _ _ _

theorem readGroup_known_of_ne (key : Nat) (flip : BitVec 72) (s : State) (d : BitVec 64) (w : BitVec 72)
    (h : tableGet s.store.mem key = some { data := d, wrong := w }) (hw : wrongBits (w ^^^ flip) ≤ 2) {n : Nat}
    (hn : n ≠ key) : tableGet (readGroup key flip s).1.store.mem n = tableGet s.store.mem n := by
  rw [readGroup_known key flip s d w h hw]
  dsimp only
  split
  · rfl
  · exact tableGet_tablePut_of_ne _ _ hn

/-! ### Recording an outcome (R123, R124, R129) -/

/-- Only the event queue and the weak row list can change. -/
theorem updateWeak_frame (b : BankNo) (row : Nat) (bad : Bool) (s : State) :
    updateWeak b row bad s =
      { s with events := (updateWeak b row bad s).events,
               store := { s.store with weak := (updateWeak b row bad s).store.weak } } := by
  unfold updateWeak
  split
  · dsimp only
    split
    · unfold post; split <;> rfl
    · rfl
  · rfl

/-- Only the event queue and, of the store, the corrected counter, the weak row list and the fault record can change. -/
theorem recordOutcome_frame (rq : Requester) (b : BankNo) (prow addr : Nat) (e : Ecc) (s : State) :
    recordOutcome rq b prow addr e s =
      { s with events := (recordOutcome rq b prow addr e s).events,
               store := { s.store with
                 corrected := (recordOutcome rq b prow addr e s).store.corrected,
                 weak := (recordOutcome rq b prow addr e s).store.weak,
                 fault := (recordOutcome rq b prow addr e s).store.fault } } := by
  unfold recordOutcome
  split
  · rfl
  · rw [updateWeak_frame]; rfl
  · dsimp only
    rw [updateWeak_frame]
    unfold post; split <;> rfl

theorem recordOutcome_corrected (rq : Requester) (b : BankNo) (prow addr : Nat) (e : Ecc) (s : State) :
    (recordOutcome rq b prow addr e s).store.corrected =
      if e = .corrected then satInc s.store.corrected else s.store.corrected := by
  cases e
  · rfl
  · simp only [recordOutcome]; rw [updateWeak_frame]; rfl
  · simp only [recordOutcome]; rw [updateWeak_frame]; simp

theorem recordOutcome_fault (rq : Requester) (b : BankNo) (prow addr : Nat) (e : Ecc) (s : State) :
    (recordOutcome rq b prow addr e s).store.fault =
      if e = .uncorrectable then
        { present := true, addr := addr, bank := b, row := prow, req := rq, total := satInc s.store.fault.total }
      else s.store.fault := by
  cases e
  · rfl
  · simp only [recordOutcome]; rw [updateWeak_frame]; rfl
  · simp only [recordOutcome]; rw [updateWeak_frame]; simp

/-! ### Requests (R99, R100) -/

/-- A request other than a fetch or a refresh that is granted leaves the waiting list for the granted work; any other
grant leaves it waiting. -/
theorem grant_asked {b d : BankNo} {r q : Req} {s : State} (hw : (s.bank b).work = none) (h : Asked s d q) :
    Asked (grant b r s) d q := by
  by_cases e : d = b
  · subst e
    rcases h with h | ⟨w, h, _⟩
    · by_cases he : r = q
      · subst he
        refine Or.inr ?_
        cases r <;> simp [grant]
      · refine Or.inl ?_
        cases r <;> simp [grant, List.mem_erase_of_ne (Ne.symm he), h]
    · rw [hw] at h; cases h
  · unfold Asked at h ⊢
    rw [bank_grant_of_ne r s e]; exact h

theorem decideBank_asked {b d : BankNo} {q : Req} {s : State} (h : Asked s d q) : Asked (decideBank b s) d q := by
  unfold decideBank
  split
  · next hf =>
    split
    · refine grant_asked ?_ h
      simp only [Bool.and_eq_true, Bank.isFree] at hf
      exact Option.isNone_iff_eq_none.1 hf.1.1.1
    · exact h
  · exact h

/-- A request that reaches its arbiter waits there or is granted. -/
theorem request_asked (b : BankNo) (r : Req) (s : State) : Asked (request b r s) b r := by
  refine decideBank_asked (Or.inl ?_)
  simp

/-- The end of another burst leaves a waiting request waiting, or grants it. -/
theorem endBurst_asked {b d : BankNo} {q : Req} {s : State} (h : q ∈ (s.bank d).waiting) :
    Asked (endBurst b s) d q := by
  unfold endBurst
  dsimp only
  split
  · exact Or.inl h
  · split
    · refine Or.inl ?_
      by_cases e : d = b
      · subst e; simpa using h
      · rw [State.bank_setBank_of_ne _ _ e]; exact h
    · refine decideBank_asked (Or.inl ?_)
      by_cases e : d = b
      · subst e; simpa using h
      · rw [State.bank_setBank_of_ne _ _ e]; exact h

end Sys2Proof.Machine
end

