-- ==== Sys2Proof/Laws/Check.lean ====
section
/-! SUPPORT. The model's check code is the remainder of a division (R143, R85). -/

namespace Sys2Proof.Machine

/-- A step of the division on a zero bit. -/
def shiftStep (r : BitVec 16) : BitVec 16 := r <<< 1 ^^^ (if r.msb then 0x8005 else 0)

theorem divisionStep_eq (r : BitVec 16) (b : Bool) : divisionStep r b = shiftStep r ^^^ (if b then 1 else 0) := by
  unfold divisionStep shiftStep
  have h : (r.concat b).msb = r.msb := by simp [BitVec.msb_concat]
  have e : (r.concat b).setWidth 16 = r <<< 1 ^^^ (if b then 1 else 0) := by
    refine BitVec.eq_of_getLsbD_eq fun i hi => ?_
    cases b <;> interval_cases i <;> simp
  simp only [h]
  cases r.msb with
  | false => simp [e]
  | true => simp [BitVec.setWidth_xor, e]; ac_rfl

theorem crcBit_eq (c : BitVec 16) (b : Bool) : crcBit c b = shiftStep c ^^^ (if b then 0x8005 else 0) := by
  unfold crcBit shiftStep
  cases c.msb <;> cases b <;> simp

theorem shiftStep_xor (x y : BitVec 16) : shiftStep (x ^^^ y) = shiftStep x ^^^ shiftStep y := by
  unfold shiftStep
  rw [BitVec.shiftLeft_xor_distrib, BitVec.msb_xor]
  cases x.msb <;> cases y.msb <;> simp
  · ac_rfl
  · ac_rfl
  · rw [show ∀ a b c : BitVec 16, a ^^^ c ^^^ (b ^^^ c) = a ^^^ b ^^^ (c ^^^ c) from fun _ _ _ => by ac_rfl]; simp

/-- The zeros behind a message are steps of the one kind. -/
theorem division_zeros (n : Nat) (r : BitVec 16) :
    (List.replicate n false).foldl divisionStep r = shiftStep^[n] r := by
  induction n generalizing r with
  | zero => rfl
  | succ n ih => rw [List.replicate_succ, List.foldl_cons, ih, divisionStep_eq]; simp

theorem shiftSteps_xor (n : Nat) (x y : BitVec 16) : shiftStep^[n] (x ^^^ y) = shiftStep^[n] x ^^^ shiftStep^[n] y := by
  induction n generalizing x y with
  | zero => rfl
  | succ n ih => rw [Function.iterate_succ_apply, shiftStep_xor, ih]; rfl

/-- Bit by bit the model's register is the remainder behind 16 zeros. -/
theorem foldl_crcBit (bits : List Bool) (r : BitVec 16) :
    bits.foldl crcBit (shiftStep^[16] r) = shiftStep^[16] (bits.foldl divisionStep r) := by
  induction bits generalizing r with
  | nil => rfl
  | cons b bits ih =>
    rw [List.foldl_cons, List.foldl_cons, ← ih]
    congr 1
    rw [crcBit_eq, divisionStep_eq, shiftSteps_xor, ← Function.iterate_succ_apply' shiftStep 16,
      Function.iterate_succ_apply]
    congr 1
    cases b <;> decide

theorem foldl_crcBit_checkCode (bits : List Bool) : bits.foldl crcBit 0 = checkCode bits := by
  have h := foldl_crcBit bits 0
  rw [show shiftStep^[16] 0 = 0 by decide] at h
  rw [h, checkCode, List.foldl_append, division_zeros]

/-- The bits of a byte, the most significant first. -/
def byteBits (b : Byte) : List Bool := (List.range 8).map fun j => b.getLsbD (7 - j)

theorem crc_eq_checkCode (bs : List Byte) : crc bs = checkCode (bs.flatMap byteBits) := by
  rw [← foldl_crcBit_checkCode, crc, List.foldl_flatMap]
  rfl

theorem range_flatMap_bits (g : Nat → Bool) (n : Nat) :
    ((List.range n).flatMap fun k => (List.range 8).map fun j => g (8 * k + j)) = (List.range (8 * n)).map g := by
  induction n with
  | zero => rfl
  | succ n ih =>
    rw [List.range_succ (n := n), List.flatMap_append, ih, Nat.mul_succ, List.range_add, List.map_append]
    simp

/-- The check code over the first bytes of a value of n bytes is that of the bits above its last 16. -/
theorem crc_bytesFrom {n : Nat} (v : BitVec (8 * (n + 2))) :
    crc (bytesFrom (n + 2) v 0 n) = checkCode (coveredBits v) := by
  rw [crc_eq_checkCode]
  congr 1
  rw [bytesFrom, coveredBits, show 8 * (n + 2) - 16 = 8 * n by omega, ← range_flatMap_bits, List.flatMap_map]
  refine List.flatMap_congr fun k hk => ?_
  rw [List.mem_range] at hk
  refine List.map_congr_left fun j hj => ?_
  rw [List.mem_range] at hj
  rw [byteAt, BitVec.getLsbD_extractLsb']
  simp only [show 7 - j < 8 by omega, decide_true, Bool.true_and]
  congr 1
  omega

/-- A good cell is one that is not all zero and whose last two bytes are the check code of the others (R143). -/
theorem cellGood_iff (c : Cell) : cellGood c = true ↔ c ≠ 0 ∧ checkCode (coveredBits c) = c.extractLsb' 0 16 := by
  unfold cellGood
  rw [Bool.and_eq_true, decide_eq_true_eq, decide_eq_true_eq, crc_bytesFrom (n := 36) c, and_comm]

/-- A page whose last two bytes are the check code of the others (R85). -/
theorem pageGood_iff (p : Page) : pageGood p = true ↔ checkCode (coveredBits p) = p.extractLsb' 0 16 := by
  unfold pageGood
  rw [decide_eq_true_eq, crc_bytesFrom (n := 510) p]

end Sys2Proof.Machine
end

