-- ==== Sys2Proof/Laws/Fetch.lean ====
section
/-! SUPPORT. What becomes of burst records under grants, and that the Fetch Unit's issue does what `FetchGoesOn` says (R100, R102,
R104, R105). -/

namespace Sys2Proof.Machine

theorem RecordsGranted.take {a b : List FetchRec} (h : RecordsGranted a b) (n : Nat) :
    RecordsGranted (a.take n) (b.take n) := by
  refine ⟨by simp [h.1], fun i r hr => ?_⟩
  rw [List.getElem?_take] at hr
  split at hr
  · next hi => simpa [List.getElem?_take, hi] using h.2 i r hr
  · cases hr

theorem RecordsGranted.drop {a b : List FetchRec} (h : RecordsGranted a b) (n : Nat) :
    RecordsGranted (a.drop n) (b.drop n) := by
  refine ⟨by simp [h.1], fun i r hr => ?_⟩
  rw [List.getElem?_drop] at hr ⊢
  exact h.2 _ r hr

/-- A grant keeps everything of a record but its state. -/
theorem RecordsGranted.map {α : Type} {a b : List FetchRec} (h : RecordsGranted a b) (f : FetchRec → α)
    (hf : ∀ r : FetchRec, f { r with st := .granted } = f r) : b.map f = a.map f := by
  refine List.ext_getElem? fun i => ?_
  rw [List.getElem?_map, List.getElem?_map]
  cases ha : a[i]? with
  | none =>
    have : b[i]? = none := by
      have hl := h.1
      rw [List.getElem?_eq_none_iff] at ha ⊢
      omega
    rw [this]
  | some r =>
    rcases h.2 i r ha with e | ⟨_, e⟩
    · rw [e]
    · rw [e]; simp [hf]

/-- A fresh record stays WAITING or becomes GRANTED. -/
theorem RecordsGranted.fresh {a b : List FetchRec} (h : RecordsGranted a b)
    (ha : ∀ r ∈ a, r.discard = false ∧ (r.st = .waiting ∨ r.st = .granted)) :
    ∀ r ∈ b, r.discard = false ∧ (r.st = .waiting ∨ r.st = .granted) := by
  intro r hr
  obtain ⟨i, hi⟩ := List.getElem?_of_mem hr
  obtain ⟨x, hx⟩ : ∃ x, a[i]? = some x := by
    have hl := (List.getElem?_eq_some_iff.1 hi).1
    rw [h.1] at hl
    exact ⟨a[i], by simp [hl]⟩
  have hm := ha x (List.mem_of_getElem? hx)
  rcases h.2 i x hx with e | ⟨_, e⟩
  · rw [e] at hi; cases hi; exact hm
  · rw [e] at hi; cases hi; exact ⟨hm.1, .inr rfl⟩

/-- What `FetchGoesOn` says of the bursts asked for so far, `p.1`, and of the cursor behind them, `p.2`. -/
structure Reached (s : State) (c : Chan) (p : List (Bool × Nat × Nat × Nat) × Option Cursor) (t : State) : Prop where
  segs : t.segs = s.segs
  chan : t.chan c = { s.chan c with fetch := (t.chan c).fetch }
  window : (t.chan c).fetch.window = (s.chan c).fetch.window
  stale : (t.chan c).fetch.stale = (s.chan c).fetch.stale
  owed : (t.chan c).fetch.owed = (s.chan c).fetch.owed
  cursor : (t.chan c).fetch.cursor = p.2
  old : RecordsGranted (s.chan c).fetch.outs ((t.chan c).fetch.outs.take (s.chan c).fetch.outs.length)
  new : ((t.chan c).fetch.outs.drop (s.chan c).fetch.outs.length).map askedBurst = p.1
  fresh : ∀ r ∈ (t.chan c).fetch.outs.drop (s.chan c).fetch.outs.length,
    r.discard = false ∧ (r.st = .waiting ∨ r.st = .granted)
  /-- Behind a burst of NEXT the cursor is on NEXT or none. -/
  onward : p.1.any (fun r => r.1) = true → ∀ k, p.2 = some k → k.next = true

/-- The cursor's move to the NEXT entry of channel c, as `FetchGoesOn` says it. -/
def toNext (s : State) (c : Chan) (held : Bool) : Option Cursor :=
  if held = true ∨ (s.chan c).ctx.map (fun x => x.entry) = none then none
  else (if (s.chan c).st = .priming ∨ (s.chan c).st = .armed ∨ (s.chan c).st = .running then (s.chan c).queue.head? else none).map
    fun e => { next := true, idx := e.startIdx, passes := e.passes }

/-- Material of the NEXT entry is held or asked for. -/
def nextHeld (f : Fetch) : Bool := f.window.any (fun w => w.next) || f.outs.any fun r => r.next && !r.discard

/-- One issue, as `FetchGoesOn` says it. -/
def askOne (s : State) (c : Chan) (p : List (Bool × Nat × Nat × Nat) × Option Cursor) :
    List (Bool × Nat × Nat × Nat) × Option Cursor :=
  match p.2 with
  | none => p
  | some k => match (if k.next then (s.chan c).queue.head? else (s.chan c).ctx.map fun x => x.entry).map fun e => s.segOf e.seg with
    | none => p
    | some d =>
      let outstanding := (s.chan c).fetch.outs.length + p.1.length
      if outstanding < 2 ∧ 16 * (outstanding + 1) + (s.chan c).fetch.window.length ≤ 64 then
        (p.1 ++ [burstFor d k], (cursorBehind d k).or (toNext s c (nextHeld (s.chan c).fetch || k.next)))
      else p

theorem presentNext_cursor (c : Chan) (s : State) :
    ((presentNext c s).chan c).fetch.cursor =
      (s.chan c).fetch.cursor.or (toNext s c (nextHeld (s.chan c).fetch)) := by
  have hp : presentedNext (s.chan c) =
      if (s.chan c).st = .priming ∨ (s.chan c).st = .armed ∨ (s.chan c).st = .running then (s.chan c).queue.head?
      else none := by
    cases h : (s.chan c).st <;> simp [presentedNext, h]
  have hb : (s.chan c).fetch.cursor = none → begun true (s.chan c).fetch = nextHeld (s.chan c).fetch := fun h => by
    simp [begun, nextHeld, h]
  unfold presentNext toNext
  rw [← hp]
  dsimp only
  split
  · next h1 h2 h3 =>
    rw [h1, h2, h3, hb h1]
    split
    · next h4 => simp [h1, h4]
    · next h4 => simp [State.setFetch, h4, cursorAt]
  · next h1 =>
    rcases hk : (s.chan c).fetch.cursor with _ | k
    · rcases hx : (s.chan c).ctx with _ | x
      · simp
      · rcases he : presentedNext (s.chan c) with _ | e
        · simp
        · exact absurd he (h1 x e hk hx)
    · rfl

theorem presentNext_fetch (c : Chan) (s : State) :
    (presentNext c s).chan c =
      { s.chan c with fetch := { (s.chan c).fetch with cursor := ((presentNext c s).chan c).fetch.cursor } } ∧
    (presentNext c s).segs = s.segs := by
  simp only [presentNext]
  split
  · split
    · exact ⟨rfl, rfl⟩
    · simp [State.setFetch]
  · exact ⟨rfl, rfl⟩

theorem Reached.outs_length {s t : State} {c : Chan} {p : List (Bool × Nat × Nat × Nat) × Option Cursor}
    (h : Reached s c p t) : (t.chan c).fetch.outs.length = (s.chan c).fetch.outs.length + p.1.length := by
  have a := h.old.1
  have b := congrArg List.length h.new
  simp only [List.length_take, List.length_map, List.length_drop] at a b
  omega

theorem any_eq_any_map (l : List FetchRec) (f : FetchRec → Bool) : l.any f = (l.map f).any id := by
  simp [List.any_map]

theorem any_next_fresh (l : List FetchRec) (h : ∀ r ∈ l, r.discard = false ∧ (r.st = .waiting ∨ r.st = .granted)) :
    l.any (fun r => r.next && !r.discard) = (l.map askedBurst).any fun r => r.1 := by
  induction l with
  | nil => rfl
  | cons r rest ih => simp [(h r (.head _)).1, ih fun x hx => h x (.tail _ hx), askedBurst]

theorem Reached.nextHeld_eq {s t : State} {c : Chan} {p : List (Bool × Nat × Nat × Nat) × Option Cursor}
    (h : Reached s c p t) :
    nextHeld (t.chan c).fetch = (nextHeld (s.chan c).fetch || p.1.any fun r => r.1) := by
  have split : (t.chan c).fetch.outs = (t.chan c).fetch.outs.take (s.chan c).fetch.outs.length ++
      (t.chan c).fetch.outs.drop (s.chan c).fetch.outs.length := (List.take_append_drop _ _).symm
  have a : ((t.chan c).fetch.outs.take (s.chan c).fetch.outs.length).any (fun r => r.next && !r.discard) =
      (s.chan c).fetch.outs.any fun r => r.next && !r.discard := by
    rw [any_eq_any_map, any_eq_any_map, h.old.map (fun r => r.next && !r.discard) fun _ => rfl]
  have b : ((t.chan c).fetch.outs.drop (s.chan c).fetch.outs.length).any (fun r => r.next && !r.discard) =
      p.1.any fun r => r.1 := by
    rw [← h.new, any_next_fresh _ h.fresh]
  unfold nextHeld
  rw [h.window, split, List.any_append, a, b, Bool.or_assoc]

theorem presentNext_reached (c : Chan) (s : State) :
    Reached s c ([], (s.chan c).fetch.cursor.or (toNext s c (nextHeld (s.chan c).fetch))) (presentNext c s) := by
  obtain ⟨h, hs⟩ := presentNext_fetch c s
  exact ⟨hs, by rw [h], by rw [h], by rw [h], by rw [h], presentNext_cursor c s,
    by rw [h]; simpa using RecordsGranted.refl _, by rw [h]; simp, by rw [h]; simp, by simp⟩

/-- The WAITING record of the burst that the cursor k asks for over a segment (R104, R105). -/
def issuedRec (d : Desc) (k : Cursor) : FetchRec :=
  { next := k.next, addr := burstAt (d.base + k.idx), first := k.idx, last := burstLast d k.idx, st := .waiting,
    discard := false }

/-- One burst issued for the cursor k: its record, the cursor moved on, and a grant decision (R105). -/
def issued (c : Chan) (d : Desc) (k : Cursor) (t : State) : State :=
  decideBank (bankOf (burstAt (d.base + k.idx))) (presentNext c (t.setFetch c
    { (t.chan c).fetch with outs := (t.chan c).fetch.outs ++ [issuedRec d k], cursor := cursorAfter d k }))

theorem issued_reached {s t : State} {c : Chan} {l : List (Bool × Nat × Nat × Nat)} {k : Cursor} (d : Desc)
    (h : Reached s c (l, some k) t) :
    Reached s c (l ++ [burstFor d k], (cursorBehind d k).or (toNext s c (nextHeld (s.chan c).fetch || k.next)))
      (issued c d k t) := by
  unfold issued
  generalize hr : issuedRec d k = r
  generalize hu : t.setFetch c { (t.chan c).fetch with
    outs := (t.chan c).fetch.outs ++ [r], cursor := cursorAfter d k } = u
  have huc : u.chan c = { s.chan c with fetch := { (t.chan c).fetch with
      outs := (t.chan c).fetch.outs ++ [r], cursor := cursorAfter d k } } := by
    rw [← hu, State.setFetch, State.chan_setChan_self, h.chan]
  have hus : u.segs = s.segs := by rw [← hu]; exact h.segs
  obtain ⟨hv, hvs⟩ := presentNext_fetch c u
  have hvc := presentNext_cursor c u
  generalize presentNext c u = v at hv hvs hvc
  have hw := decideBank_grantFrame (bankOf (burstAt (d.base + k.idx))) v
  have hg := decideBank_granted (bankOf (burstAt (d.base + k.idx))) v c
  generalize decideBank (bankOf (burstAt (d.base + k.idx))) v = w at hw hg
  have hwc := hw.chan c
  have hlen := h.outs_length
  have houts : (v.chan c).fetch.outs = (t.chan c).fetch.outs ++ [r] := by rw [hv, huc]
  rw [houts] at hg
  have hfetch : (w.chan c).fetch = { (t.chan c).fetch with
      outs := (w.chan c).fetch.outs, cursor := (v.chan c).fetch.cursor } := by
    rw [hwc, hv, huc]
  have hdrop : ((t.chan c).fetch.outs ++ [r]).drop (s.chan c).fetch.outs.length =
      (t.chan c).fetch.outs.drop (s.chan c).fetch.outs.length ++ [r] :=
    List.drop_append_of_le_length (by omega)
  have hnew : ((t.chan c).fetch.outs.drop (s.chan c).fetch.outs.length ++ [r]).map askedBurst = l ++ [burstFor d k] := by
    rw [List.map_append, h.new, ← hr]; rfl
  have hfresh : ∀ x ∈ (t.chan c).fetch.outs.drop (s.chan c).fetch.outs.length ++ [r],
      x.discard = false ∧ (x.st = .waiting ∨ x.st = .granted) := by
    intro x hx
    rcases List.mem_append.1 hx with hx | hx
    · exact h.fresh x hx
    · rw [List.mem_singleton.1 hx, ← hr]; exact ⟨rfl, .inl rfl⟩
  have hon : l.any (fun r => r.1) = true → k.next = true := fun a => h.onward a k rfl
  refine ⟨?_, ?_, ?_, ?_, ?_, ?_, ?_, ?_, ?_, ?_⟩
  · rw [hw.rest]; exact hvs.trans hus
  · rw [hwc, hv, huc]
  · rw [hfetch]; exact h.window
  · rw [hfetch]; exact h.stale
  · rw [hfetch]; exact h.owed
  · have hheld : nextHeld (u.chan c).fetch = (nextHeld (s.chan c).fetch || k.next) := by
      have e : nextHeld (u.chan c).fetch = (nextHeld (t.chan c).fetch || k.next) := by
        rw [huc, ← hr]; simp [nextHeld, issuedRec, Bool.or_assoc]
      rw [e, h.nextHeld_eq]
      cases hl : l.any fun r => r.1
      · simp
      · simp [hon hl]
    have hto : ∀ b, toNext u c b = toNext s c b := fun b => by
      unfold toNext; rw [huc]
    rw [hfetch]
    show (v.chan c).fetch.cursor = _
    rw [hvc, hto, hheld, huc, ← cursorAfter_eq]
  · have := (hg.take (s.chan c).fetch.outs.length)
    rw [List.take_append_of_le_length (by omega)] at this
    exact h.old.trans this
  · rw [(hg.drop _).map askedBurst fun _ => rfl, hdrop, hnew]
  · exact (hg.drop _).fresh (by rw [hdrop]; exact hfresh)
  · intro a m hm
    have hkn : k.next = true := by
      rw [List.any_append, Bool.or_eq_true] at a
      rcases a with a | a
      · exact hon a
      · simpa [burstFor] using a
    rw [hkn] at hm
    simp only [cursorBehind, toNext, Bool.or_true, true_or, if_true, Option.or_none] at hm
    split at hm
    · cases hm; exact hkn
    · split at hm
      · cases hm
      · cases hm; exact hkn

theorem issueOne_reached {s t : State} {c : Chan} {p : List (Bool × Nat × Nat × Nat) × Option Cursor}
    (h : Reached s c p t) : Reached s c (askOne s c p) (issueOne c t) := by
  rcases p with ⟨l, _ | k⟩
  · simp only [issueOne, askOne, h.cursor]; exact h
  · have hlen := h.outs_length
    have ht : taggedEntry (t.chan c) k.next =
        if k.next then (s.chan c).queue.head? else (s.chan c).ctx.map fun x => x.entry := by
      rw [h.chan]; rfl
    simp only [issueOne, askOne, h.cursor, ht]
    generalize (if k.next then (s.chan c).queue.head? else (s.chan c).ctx.map fun x => x.entry) = e
    rcases e with _ | e
    · exact h
    · have hd : t.segOf e.seg = s.segOf e.seg := by
        unfold State.segOf State.seg; rw [h.segs]
      have hroom : canIssue (t.chan c).fetch = true ↔
          ((s.chan c).fetch.outs.length + l.length < 2 ∧
            16 * ((s.chan c).fetch.outs.length + l.length + 1) + (s.chan c).fetch.window.length ≤ 64) := by
        unfold canIssue
        rw [hlen, h.window]
        simp only [Bool.and_eq_true, decide_eq_true_eq]
        omega
      simp only [Option.map_some, hd]
      by_cases hr : canIssue (t.chan c).fetch = true
      · rw [if_pos hr, if_pos (hroom.1 hr)]
        exact issued_reached _ h
      · rw [if_neg hr, if_neg fun x => hr (hroom.2 x)]; exact h

/-- The Fetch Unit's issue (R104, R105). -/
theorem fetchIssue_goesOn (c : Chan) (s : State) :
    FetchGoesOn s (s.chan c).st ((s.chan c).ctx.map fun x => x.entry) (s.chan c).queue (s.chan c).fetch
      ((fetchIssue c s).chan c).fetch := by
  have h := issueOne_reached (issueOne_reached (presentNext_reached c s))
  exact ⟨h.window, h.stale, h.owed, h.cursor, h.old, h.new, h.fresh⟩

end Sys2Proof.Machine
end

