-- ==== Sys2Proof/Laws/Lanes.lean ====
section
/-! SUPPORT. Everything a lane's own rules can change: each function of the sequencer, of the streams and of the output
tick keeps to its lane. -/

namespace Sys2Proof.Machine

variable {c : Chan} {s t u : State}

theorem LaneOnly.refl (c : Chan) (s : State) : LaneOnly c s s := ⟨rfl, fun _ _ => .refl _, .refl s⟩

theorem LaneOnly.trans (h : LaneOnly c s t) (k : LaneOnly c t u) : LaneOnly c s u := by
  refine ⟨?_, fun d e => (h.others d e).trans (k.others d e),
    fun b => (h.banks b).trans (k.banks b) (by rw [h.rest]) (by rw [h.rest])⟩
  have h1 := h.rest; have k1 := k.rest
  rw [k1, h1]

theorem IssueFrame.lane (h : IssueFrame c s t) : LaneOnly c s t := by
  refine ⟨?_, h.others, h.banks⟩
  have h1 := h.rest
  rw [h1]

theorem setChan_lane (c : Chan) (x : Channel) (s : State) : LaneOnly c s (s.setChan c x) :=
  ⟨rfl, fun d e => by rw [State.chan_setChan_of_ne _ _ e]; exact .refl _, fun _ => .same rfl⟩

theorem setFetch_lane (c : Chan) (f : Fetch) (s : State) : LaneOnly c s (s.setFetch c f) := setChan_lane _ _ _

theorem setSt_lane (c : Chan) (x : ChState) (s : State) : LaneOnly c s (s.setSt c x) := setChan_lane _ _ _

theorem setCnt_lane (c : Chan) (k : ChanCounters) (s : State) : LaneOnly c s (s.setCnt c k) := setChan_lane _ _ _

theorem countCompletion_lane (c : Chan) (s : State) : LaneOnly c s (countCompletion c s) := setCnt_lane _ _ _

theorem post_lane (c : Chan) (src : Source) (kind : Kind) (detail : BitVec 32) (status : Code) (s : State) :
    LaneOnly c s (post src kind detail status s) := by
  unfold post
  split
  · exact ⟨rfl, fun _ _ => .refl _, fun _ => .same rfl⟩
  · exact .refl c s

theorem freeCredits_lane (c : Chan) (k : CreditClass) (n : Nat) (s : State) : LaneOnly c s (freeCredits k n s) :=
  ⟨rfl, fun _ _ => .refl _, fun _ => .same rfl⟩

theorem changeUse_lane (c : Chan) (i : BitVec 16) (f : Nat → Nat) (s : State) : LaneOnly c s (changeUse i f s) := by
  unfold changeUse
  split
  · exact .refl c s
  · exact ⟨rfl, fun _ _ => .refl _, fun _ => .same rfl⟩

theorem lowerUse_lane (c : Chan) (i : BitVec 16) (s : State) : LaneOnly c s (lowerUse i s) := changeUse_lane _ _ _ _

theorem raiseUse_lane (c : Chan) (i : BitVec 16) (s : State) : LaneOnly c s (raiseUse i s) := changeUse_lane _ _ _ _

theorem setGroup_lane (c : Chan) (g : Fin 4) (x : Option Group) (s : State) : LaneOnly c s (s.setGroup g x) :=
  ⟨rfl, fun _ _ => .refl _, fun _ => .same rfl⟩

theorem fetchIssue_lane (c : Chan) (s : State) : LaneOnly c s (fetchIssue c s) := (fetchIssue_issueFrame c s).lane

theorem rejectPlay_lane (c : Chan) (code : Code) (seg : BitVec 16) (s : State) :
    LaneOnly c s (rejectPlay c code seg s) := (setCnt_lane _ _ _).trans (post_lane _ _ _ _ _ _)

theorem placeHead_lane (c : Chan) (s : State) : LaneOnly c s (placeHead c s) := by
  simp only [placeHead]
  split
  · exact .refl c s
  · split
    · exact setChan_lane _ _ _
    · exact .refl c s

theorem placeReturned_lane (c : Chan) (s : State) : LaneOnly c s (placeReturned c s) :=
  (placeHead_lane c s).trans (placeHead_lane c _)

/-! ### Activation and release -/

theorem boundarySignal_lane (c : Chan) (s : State) : LaneOnly c s (boundarySignal c s) := by
  unfold boundarySignal
  split
  · exact setChan_lane _ _ _
  · exact .refl c s

theorem popQueue_lane (c : Chan) (rest : List Entry) (s : State) : LaneOnly c s (popQueue c rest s) :=
  (setChan_lane _ _ _).trans (freeCredits_lane _ _ _ _)

theorem discardEntry_lane (c : Chan) (e : Entry) (s : State) : LaneOnly c s (discardEntry c e s) :=
  (lowerUse_lane c _ s).trans ((rejectPlay_lane c _ _ _).trans ((setFetch_lane c _ _).trans (placeReturned_lane c _)))

theorem installEntry_lane (c : Chan) (e : Entry) (p : Profile) (offer : Option (Nat × BitVec 32)) (s : State) :
    LaneOnly c s (installEntry c e p offer s) := (setChan_lane _ _ _).trans (boundarySignal_lane c _)

theorem activateFrom_lane (offer : Option (Nat × BitVec 32)) (c : Chan) (l : List Entry) (s : State) :
    LaneOnly c s (activateFrom offer c l s) := by
  induction l generalizing s with
  | nil => exact .refl c s
  | cons e rest ih =>
    simp only [activateFrom]
    split
    · exact (popQueue_lane c rest s).trans (installEntry_lane _ _ _ _ _)
    · exact (popQueue_lane c rest s).trans ((discardEntry_lane c e _).trans (ih _))

theorem activate_lane (offer : Option (Nat × BitVec 32)) (c : Chan) (s : State) :
    LaneOnly c s (activate offer c s) := activateFrom_lane _ _ _ _

theorem releaseCtx_lane (c : Chan) (s : State) : LaneOnly c s (releaseCtx c s) := by
  simp only [releaseCtx]
  split
  · exact (lowerUse_lane c _ s).trans ((setChan_lane _ _ _).trans (setChan_lane _ _ _))
  · exact (setChan_lane _ _ _).trans (setChan_lane _ _ _)

theorem lowerAll_lane (c : Chan) (q : List Entry) (s : State) :
    LaneOnly c s (q.foldl (fun s e => lowerUse e.seg s) s) := by
  induction q generalizing s with
  | nil => exact .refl c s
  | cons e q ih => exact (lowerUse_lane c _ s).trans (ih _)

theorem flushQueue_lane (c : Chan) (s : State) : LaneOnly c s (flushQueue c s) :=
  (lowerAll_lane c _ s).trans ((setChan_lane _ _ _).trans (freeCredits_lane _ _ _ _))

theorem flushIntake_lane (c : Chan) (s : State) : LaneOnly c s (flushIntake c s) :=
  (setChan_lane _ _ _).trans (freeCredits_lane _ _ _ _)

theorem flushChannel_lane (c : Chan) (s : State) : LaneOnly c s (flushChannel c s) := by
  unfold flushChannel
  split
  · exact flushQueue_lane c s
  · exact flushIntake_lane c s

theorem emptyWindow_lane (c : Chan) (s : State) : LaneOnly c s (emptyWindow c s) := setFetch_lane _ _ _

theorem goIdleEmpty_lane (c : Chan) (s : State) : LaneOnly c s (goIdleEmpty c s) :=
  (setSt_lane _ _ _).trans (post_lane _ _ _ _ _ _)

theorem releaseActive_lane (c : Chan) (s : State) : LaneOnly c s (releaseActive c s) :=
  (releaseCtx_lane c s).trans ((setFetch_lane c _ _).trans (placeReturned_lane c _))

theorem moveOn_lane (offer : Option (Nat × BitVec 32)) (c : Chan) (s : State) : LaneOnly c s (moveOn offer c s) := by
  simp only [moveOn]
  split
  · exact (flushChannel_lane c s).trans ((emptyWindow_lane c _).trans (goIdleEmpty_lane c _))
  · split
    · exact (activate_lane offer c s).trans (fetchIssue_lane c _)
    · exact (activate_lane offer c s).trans ((emptyWindow_lane c _).trans (goIdleEmpty_lane c _))

theorem completeEntry_lane (c : Chan) (s : State) : LaneOnly c s (completeEntry c s) := by
  simp only [completeEntry]
  split
  · exact .refl c s
  · split
    · exact .refl c s
    · refine (countCompletion_lane c s).trans (.trans ?_ ((releaseActive_lane c _).trans (moveOn_lane _ c _)))
      split
      · exact post_lane _ _ _ _ _ _
      · exact .refl c _

/-! ### Groups and arming -/

theorem examineGroup_lane (c : Chan) (g : Fin 4) (s : State) : LaneOnly c s (examineGroup g s) := by
  simp only [examineGroup]
  split
  · exact .refl c s
  · split
    · exact setGroup_lane _ _ _ _
    · exact .refl c s

theorem becomeArmed_lane (c : Chan) (s : State) : LaneOnly c s (becomeArmed c s) := by
  simp only [becomeArmed]
  split
  · exact (setSt_lane _ _ _).trans (examineGroup_lane _ _ _)
  · exact setSt_lane _ _ _

theorem leaveGroup_lane (c : Chan) (s : State) : LaneOnly c s (leaveGroup c s) := by
  simp only [leaveGroup]
  split
  · exact .refl c s
  · split
    · exact .refl c s
    · split
      · exact (setGroup_lane _ _ _ _).trans (examineGroup_lane _ _ _)
      · exact setGroup_lane _ _ _ _

theorem armIfReady_lane (c : Chan) (s : State) : LaneOnly c s (armIfReady c s) := by
  simp only [armIfReady]
  split
  · split
    · split
      · exact becomeArmed_lane c s
      · exact .refl c s
    · split
      · exact .refl c s
      · split
        · exact becomeArmed_lane c s
        · exact .refl c s
  · exact .refl c s

/-! ### Streams -/

theorem openStream_lane (c : Chan) (p : Profile) (s : State) : LaneOnly c s (openStream c p s) :=
  (setChan_lane _ _ _).trans (boundarySignal_lane c _)

theorem popIntake_lane (c : Chan) (rest : List StreamCell) (s : State) : LaneOnly c s (popIntake c rest s) :=
  (setChan_lane _ _ _).trans (freeCredits_lane _ _ _ _)

theorem settleFrom_lane (opening : Bool) (c : Chan) (l : List StreamCell) (s : State) :
    LaneOnly c s (settleFrom opening c l s) := by
  induction l generalizing s with
  | nil => exact .refl c s
  | cons x rest ih =>
    simp only [settleFrom]
    split
    · split
      · split
        · exact openStream_lane _ _ _
        · exact (rejectPlay_lane c _ _ s).trans ((popIntake_lane c _ _).trans (ih _))
      · exact .refl c s
    · exact (rejectPlay_lane c _ _ s).trans ((popIntake_lane c _ _).trans (ih _))

theorem settleIntake_lane (opening : Bool) (c : Chan) (s : State) : LaneOnly c s (settleIntake opening c s) := by
  unfold settleIntake
  split
  · exact settleFrom_lane _ _ _ _
  · exact .refl c s

theorem endStream_lane (c : Chan) (n : Nat) (s : State) : LaneOnly c s (endStream c n s) := by
  simp only [endStream]
  have gone : ∀ (k : Nat) (x : Channel), LaneOnly c s
      (countCompletion c (freeCredits (.stream c) k (s.setChan c x))) := fun k x =>
    (setChan_lane c x s).trans ((freeCredits_lane c _ k _).trans (countCompletion_lane c _))
  split
  · exact (gone _ _).trans ((settleIntake_lane _ c _).trans ((flushIntake_lane c _).trans (goIdleEmpty_lane c _)))
  · split
    · exact (gone _ _).trans (settleIntake_lane _ c _)
    · exact (gone _ _).trans ((settleIntake_lane _ c _).trans (goIdleEmpty_lane c _))

theorem joinIntake_lane (c : Chan) (cell : StreamCell) (s : State) : LaneOnly c s (joinIntake c cell s) := by
  simp only [joinIntake]
  split
  · exact (setChan_lane c _ s).trans ((settleIntake_lane _ c _).trans (armIfReady_lane c _))
  · split
    · split
      · exact (setChan_lane c _ s).trans (endStream_lane _ _ _)
      · exact (setChan_lane c _ s).trans (armIfReady_lane c _)
    · exact (setChan_lane c _ s).trans (armIfReady_lane c _)

/-! ### Stopping, halting, priming -/

theorem stopChannel_lane (atEnd : Bool) (c : Chan) (s : State) : LaneOnly c s (stopChannel atEnd c s) := by
  simp only [stopChannel]
  have cut : ∀ s : State, LaneOnly c s (flushChannel c (emptyWindow c (releaseCtx c s))) := fun s =>
    (releaseCtx_lane c s).trans ((emptyWindow_lane c _).trans (flushChannel_lane c _))
  split
  · exact flushChannel_lane c _
  · exact (flushChannel_lane c _).trans (setSt_lane _ _ _)
  · exact ((setSt_lane c _ _).trans (leaveGroup_lane c _)).trans (cut _)
  · exact ((setSt_lane c _ _).trans (leaveGroup_lane c _)).trans (cut _)
  · split
    · exact (setSt_lane c _ _).trans ((setFetch_lane c _ _).trans (placeReturned_lane c _))
    · exact (cut _).trans (setSt_lane _ _ _)
  · split
    · exact .refl c _
    · exact (cut _).trans (setSt_lane _ _ _)

theorem haltChannel_lane (c : Chan) (s : State) : LaneOnly c s (haltChannel c s) := by
  simp only [haltChannel]
  have halt : ∀ (left : ChState) (s : State), LaneOnly c s (settleIntake false c (post (.channel c) .halted
      (haltedDetail left (heldSeg (s.chan c))) .ok
      (leaveGroup c ((emptyWindow c (releaseCtx c s)).setSt c .halted)))) := fun left s =>
    ((releaseCtx_lane c s).trans ((emptyWindow_lane c _).trans ((setSt_lane c _ _).trans
      (leaveGroup_lane c _)))).trans ((post_lane _ _ _ _ _ _).trans (settleIntake_lane _ c _))
  split
  · exact .refl c _
  · exact .refl c _
  · exact halt _ _

theorem primeMember_lane (c : Chan) (s : State) : LaneOnly c s (primeMember c s) := by
  simp only [primeMember]
  refine (setSt_lane c .priming s).trans ?_
  split
  · refine (activate_lane none c _).trans ?_
    split
    · exact (fetchIssue_lane c _).trans (armIfReady_lane c _)
    · exact armIfReady_lane c _
  · exact (settleIntake_lane _ c _).trans (armIfReady_lane c _)

/-! ### Arriving play entries -/

theorem acceptEntry_lane (c : Chan) (e : Entry) (s : State) : LaneOnly c s (acceptEntry c e s) := by
  simp only [acceptEntry]
  have join : ∀ x, LaneOnly c s ((raiseUse e.seg s).setChan c x) := fun x =>
    (raiseUse_lane c _ s).trans (setChan_lane c x _)
  split
  · exact (join _).trans ((activate_lane _ c _).trans ((fetchIssue_lane c _).trans (armIfReady_lane c _)))
  · exact (join _).trans ((fetchIssue_lane c _).trans (armIfReady_lane c _))

/-! ### Ticks -/

theorem present_lane (c : Chan) (v : BitVec 16) (m : Bool) (s : State) : LaneOnly c s (present c v m s) :=
  setChan_lane _ _ _

theorem noteClip_lane (c : Chan) (seg : BitVec 16) (r : Shaped) (s : State) : LaneOnly c s (noteClip c seg r s) := by
  simp only [noteClip]
  split
  · split
    · exact setCnt_lane _ _ _
    · exact (setCnt_lane c _ s).trans ((setChan_lane c _ _).trans (post_lane _ _ _ _ _ _))
  · exact .refl c s

theorem starve_lane (c : Chan) (seg : BitVec 16) (i : Nat) (s : State) : LaneOnly c s (starve c seg i s) :=
  (present_lane c _ _ s).trans ((setCnt_lane c _ _).trans (post_lane _ _ _ _ _ _))

theorem deliver_lane (c : Chan) (seg : BitVec 16) (snap : Profile) (y0 y1 : Sample) (f : BitVec 32) (m : Bool)
    (s : State) : LaneOnly c s (deliver c seg snap y0 y1 f m s) := (noteClip_lane c _ _ s).trans (present_lane _ _ _ _)

theorem tickPlay_lane (c : Chan) (x : Ctx) (s : State) : LaneOnly c s (tickPlay c x s) := by
  simp only [tickPlay]
  split
  · exact starve_lane _ _ _ _
  · have out : ∀ (y0 y1 : Sample) (m : Bool), LaneOnly c s (deliver c x.entry.seg x.snap y0 y1 x.f m s) :=
      fun _ _ _ => deliver_lane c _ _ _ _ _ _ s
    split
    · exact (out _ _ _).trans (setChan_lane _ _ _)
    · exact (out _ _ _).trans ((setChan_lane c _ _).trans (fetchIssue_lane c _))

theorem tickStream_lane (c : Chan) (x : Stream) (s : State) : LaneOnly c s (tickStream c x s) := by
  simp only [tickStream]
  split
  · exact starve_lane _ _ _ _
  · have out : ∀ (y0 y1 : Sample), LaneOnly c s (deliver c 0 x.snap y0 y1 x.f false s) :=
      fun _ _ => deliver_lane c _ _ _ _ _ _ s
    split
    · exact (out _ _).trans (endStream_lane _ _ _)
    · split
      · exact (out _ _).trans ((setChan_lane c _ _).trans (popIntake_lane c _ _))
      · exact (out _ _).trans (setChan_lane _ _ _)

theorem tick_lane (c : Chan) (s : State) : LaneOnly c s (tick c s) := by
  simp only [tick]
  refine (completeEntry_lane c s).trans ?_
  have run : LaneOnly c (completeEntry c s) (match ((completeEntry c s).chan c).ctx, ((completeEntry c s).chan c).stream
      with
      | some x, _ => tickPlay c x (completeEntry c s)
      | none, some x => tickStream c x (completeEntry c s)
      | none, none => completeEntry c s) := by
    split
    · exact tickPlay_lane _ _ _
    · exact tickStream_lane _ _ _
    · exact .refl c _
  split
  · exact run
  · exact run
  · exact present_lane _ _ _ _
  · split
    · exact present_lane _ _ _ _
    · exact present_lane _ _ _ _

/-- Everything an output tick can change (R44, R63, R64). -/
theorem tickNow_lane (c : Chan) (s : State) : LaneOnly c s (tickNow c s) := (setChan_lane c _ s).trans (tick_lane c _)

end Sys2Proof.Machine
end

