-- ==== Sys2Proof/Laws/Ended.lean ====
section
/-! SUPPORT. The completion actions of an ended entry neither read nor write the Link Receiver and the CONTROL freed count, so
a cell's arrival and an operation's take count alike before and behind them (R26, R148, R157). -/

namespace Sys2Proof.Machine

/-- s with another Link Receiver and another CONTROL freed count. -/
def State.atLink (s : State) (l : Lrx) (n : BitVec 8) : State :=
  { s with lrx := l, ltx := { s.ltx with freed := s.ltx.freed.set .control n } }

/-- f neither reads nor writes the Link Receiver and the CONTROL freed count. -/
def ApartFromLink (f : State → State) : Prop :=
  ∀ (l : Lrx) (n : BitVec 8) (s : State), f (s.atLink l n) = (f s).atLink l n

theorem ApartFromLink.comp {f g : State → State} (hf : ApartFromLink f) (hg : ApartFromLink g) :
    ApartFromLink fun s => f (g s) := fun l n s => (congrArg f (hg l n s)).trans (hf l n _)

theorem post_apart (src : Source) (kind : Kind) (detail : BitVec 32) (status : Code) :
    ApartFromLink (post src kind detail status) := fun l n s => by
  by_cases h : s.mask.getLsbD kind.num = true <;> simp [post, State.atLink, h]

theorem changeUse_apart (i : BitVec 16) (f : Nat → Nat) : ApartFromLink (changeUse i f) := fun l n s => by
  cases h : tableGet s.segs i.toNat <;> simp [changeUse, State.seg, State.atLink, h]

theorem grant_apart (b : BankNo) (r : Req) : ApartFromLink (grant b r) := fun l n s => by
  cases r <;> rfl

theorem decideBank_apart (b : BankNo) : ApartFromLink (decideBank b) := fun l n s => by
  have hc : choose (s.atLink l n) b = choose s b := rfl
  unfold decideBank
  rw [hc]
  split
  · next h =>
    rw [if_pos (show ((s.bank b).isFree && decide (s.part = .active) && !s.resetLow) = true from h)]
    split
    · exact grant_apart _ _ _ _ _
    · rfl
  · next h =>
    rw [if_neg (show ¬((s.bank b).isFree && decide (s.part = .active) && !s.resetLow) = true from h)]

theorem presentNext_apart (c : Chan) : ApartFromLink (presentNext c) := fun l n s => by
  have hc : (s.atLink l n).chan c = s.chan c := rfl
  unfold presentNext
  rw [hc]
  dsimp only
  split
  · split <;> rfl
  · rfl

theorem issueOne_apart (c : Chan) : ApartFromLink (issueOne c) := fun l n s => by
  have hc : (s.atLink l n).chan c = s.chan c := rfl
  unfold issueOne
  rw [hc]
  dsimp only
  split
  · rfl
  · split
    · rfl
    · split
      · rw [show ∀ (f : Fetch), (s.atLink l n).setFetch c f = (s.setFetch c f).atLink l n from fun _ => rfl,
          presentNext_apart, decideBank_apart]
        rfl
      · rfl

theorem fetchIssue_apart (c : Chan) : ApartFromLink (fetchIssue c) :=
  (issueOne_apart c).comp ((issueOne_apart c).comp (presentNext_apart c))

theorem placeHead_apart (c : Chan) : ApartFromLink (placeHead c) := fun l n s => by
  have hc : (s.atLink l n).chan c = s.chan c := rfl
  unfold placeHead
  rw [hc]
  dsimp only
  split
  · rfl
  · split <;> rfl

theorem placeReturned_apart (c : Chan) : ApartFromLink (placeReturned c) := (placeHead_apart c).comp (placeHead_apart c)

theorem discardEntry_apart (c : Chan) (e : Entry) : ApartFromLink (discardEntry c e) := fun l n s => by
  unfold discardEntry rejectPlay lowerUse
  rw [changeUse_apart]
  dsimp only
  rw [show ∀ u : State, countRejection c (u.atLink l n) = (countRejection c u).atLink l n from fun _ => rfl, post_apart,
    show ∀ (u : State) (f : Fetch), (u.atLink l n).setFetch c f = (u.setFetch c f).atLink l n from fun _ _ => rfl,
    placeReturned_apart]
  rfl

theorem installEntry_apart (c : Chan) (e : Entry) (p : Profile) (offer : Option (Nat × BitVec 32)) :
    ApartFromLink (installEntry c e p offer) := fun l n s => by
  simp only [installEntry, boundarySignal]
  split
  · next h => exact (if_pos h).symm ▸ rfl
  · next h => exact (if_neg h).symm ▸ rfl

theorem activateFrom_apart (offer : Option (Nat × BitVec 32)) (c : Chan) (q : List Entry) :
    ApartFromLink (activateFrom offer c q) := fun l n s => by
  induction q generalizing s with
  | nil => rfl
  | cons e rest ih =>
    have hp : (popQueue c rest (s.atLink l n)) = (popQueue c rest s).atLink l n := rfl
    simp only [activateFrom]
    rw [hp, show ((popQueue c rest s).atLink l n).profile e.prof = (popQueue c rest s).profile e.prof from rfl]
    split
    · exact installEntry_apart _ _ _ _ _ _ _
    · rw [discardEntry_apart]; exact ih _

theorem lowerAll_apart (q : List Entry) (l : Lrx) (n : BitVec 8) (s : State) :
    q.foldl (fun s e => lowerUse e.seg s) (s.atLink l n) = (q.foldl (fun s e => lowerUse e.seg s) s).atLink l n := by
  induction q generalizing s with
  | nil => rfl
  | cons e rest ih =>
    simp only [List.foldl_cons]
    rw [show lowerUse e.seg (s.atLink l n) = (lowerUse e.seg s).atLink l n from changeUse_apart _ _ _ _ _]
    exact ih _

theorem flushChannel_apart (c : Chan) : ApartFromLink (flushChannel c) := fun l n s => by
  have hc : (s.atLink l n).chan c = s.chan c := rfl
  unfold flushChannel
  rw [hc]
  split
  · unfold flushQueue
    rw [hc]
    dsimp only
    rw [lowerAll_apart]
    rfl
  · rfl

theorem goIdleEmpty_apart (c : Chan) : ApartFromLink (goIdleEmpty c) := fun l n s => by
  unfold goIdleEmpty
  rw [← post_apart]; rfl

theorem releaseActive_apart (c : Chan) : ApartFromLink (releaseActive c) := fun l n s => by
  have hr : releaseCtx c (s.atLink l n) = (releaseCtx c s).atLink l n := by
    simp only [releaseCtx, show (s.atLink l n).chan c = s.chan c from rfl]
    split
    · rw [show ∀ i, lowerUse i (s.atLink l n) = (lowerUse i s).atLink l n from fun _ => changeUse_apart _ _ _ _ _]; rfl
    · rfl
  unfold releaseActive
  rw [hr]
  dsimp only
  rw [show ((releaseCtx c s).atLink l n).setFetch c (fetchReleaseTag false (((releaseCtx c s).atLink l n).chan c).fetch) =
    ((releaseCtx c s).setFetch c (fetchReleaseTag false ((releaseCtx c s).chan c).fetch)).atLink l n from rfl]
  exact placeReturned_apart c l n _

theorem moveOn_apart (offer : Option (Nat × BitVec 32)) (c : Chan) : ApartFromLink (moveOn offer c) := fun l n s => by
  have hc : (s.atLink l n).chan c = s.chan c := rfl
  have ha : activate offer c (s.atLink l n) = (activate offer c s).atLink l n := by
    unfold activate; rw [hc]; exact activateFrom_apart _ _ _ _ _ _
  have he : ∀ u : State, emptyWindow c (u.atLink l n) = (emptyWindow c u).atLink l n := fun _ => rfl
  unfold moveOn
  rw [hc, ha]
  split
  · rw [flushChannel_apart, he, goIdleEmpty_apart]
  · dsimp only
    rw [show ((activate offer c s).atLink l n).chan c = (activate offer c s).chan c from rfl]
    split
    · exact fetchIssue_apart _ _ _ _
    · rw [he, goIdleEmpty_apart]

/-- The completion actions keep apart from the Link Receiver and the CONTROL freed count (R26). -/
theorem completeEntry_atLink (c : Chan) : ApartFromLink (completeEntry c) := fun l n s => by
  have hc : (s.atLink l n).chan c = s.chan c := rfl
  unfold completeEntry
  rw [hc]
  split
  · rfl
  · next x _ =>
    split
    · rfl
    · have hn : countCompletion c (s.atLink l n) = (countCompletion c s).atLink l n := rfl
      dsimp only
      rw [hn]
      split
      · rw [post_apart, releaseActive_apart, moveOn_apart]
      · rw [releaseActive_apart, moveOn_apart]

theorem completeEntry_link (c : Chan) (s : State) :
    (completeEntry c s).lrx = s.lrx ∧ (completeEntry c s).ltx.freed.get .control = s.ltx.freed.get .control := by
  have h : completeEntry c s = (completeEntry c s).atLink s.lrx (s.ltx.freed.get .control) :=
    completeEntry_atLink c s.lrx (s.ltx.freed.get .control) s
  rw [h]; exact ⟨rfl, rfl⟩

theorem completeEntry_lrx (c : Chan) (s : State) : (completeEntry c s).lrx = s.lrx := (completeEntry_link c s).1

/-- What reads and writes only those two goes alike before and behind the completion actions. -/
theorem completeEntry_throughLink {g : State → State} {l : Lrx → BitVec 8 → Lrx} {n : Lrx → BitVec 8 → BitVec 8}
    (hg : ∀ u : State, g u = u.atLink (l u.lrx (u.ltx.freed.get .control)) (n u.lrx (u.ltx.freed.get .control)))
    (c : Chan) (s : State) : completeEntry c (g s) = g (completeEntry c s) := by
  rw [hg, hg (completeEntry c s), completeEntry_atLink, (completeEntry_link c s).1, (completeEntry_link c s).2]

/-- The arrival of a cell counts alike before and behind them (R148). -/
theorem completeEntry_arrival (k : CreditClass) (c : Chan) (s : State) :
    completeEntry c (countReceived k (syncGood s)) = countReceived k (syncGood (completeEntry c s)) :=
  completeEntry_throughLink (g := fun u => countReceived k (syncGood u))
    (l := fun x _ => { x with
      badRun := 0, boundary := x.boundary + 304, silence := true, received := x.received.set k (x.received.get k + 1) }) (n := fun _ m => m) (fun _ => rfl) c s

/-- The arrival and the take of a control cell count alike before and behind them (R148, R157). -/
theorem completeEntry_controlTaken (c : Chan) (s : State) :
    completeEntry c (controlTaken s) = controlTaken (completeEntry c s) :=
  completeEntry_throughLink (g := controlTaken)
    (l := fun x _ => { x with
      badRun := 0, boundary := x.boundary + 304, silence := true, received := x.received.set .control (x.received.get .control + 1) }) (n := fun _ m => m + 1) (fun _ => rfl) c s

/-! ### Behind them no ended entry waits -/

/-- The channel holds no ended entry. -/
def NoneEnded (ch : Channel) : Prop := ∀ x, ch.ctx = some x → x.done = none

theorem popQueue_ctx (c : Chan) (rest : List Entry) (s : State) : ((popQueue c rest s).chan c).ctx = (s.chan c).ctx := by
  show ((s.setChan c { s.chan c with queue := rest }).chan c).ctx = _
  rw [State.chan_setChan_self]

theorem placeHead_ctx (c : Chan) (s : State) : ((placeHead c s).chan c).ctx = (s.chan c).ctx := by
  unfold placeHead
  dsimp only
  split
  · rfl
  · split
    · rw [State.chan_setChan_self]
    · rfl

theorem discardEntry_ctx (c : Chan) (e : Entry) (s : State) : ((discardEntry c e s).chan c).ctx = (s.chan c).ctx := by
  simp only [discardEntry, placeReturned, placeHead_ctx, State.setFetch, State.chan_setChan_self, rejectPlay, post_chan,
    countRejection, State.setCnt]
  unfold lowerUse changeUse
  split <;> rfl

theorem activateFrom_noneEnded (offer : Option (Nat × BitVec 32)) (c : Chan) (q : List Entry) (s : State)
    (h : NoneEnded (s.chan c)) : NoneEnded ((activateFrom offer c q s).chan c) := by
  induction q generalizing s with
  | nil => exact h
  | cons e rest ih =>
    simp only [activateFrom]
    split
    · intro x hx
      simp only [installEntry, boundarySignal, commitCurve] at hx
      split at hx <;> simp only [State.chan_setChan_self, Option.some.injEq] at hx <;> rw [← hx] <;> rfl
    · refine ih _ fun x hx => h x ?_
      rwa [discardEntry_ctx, popQueue_ctx] at hx

theorem lowerUse_chans (i : BitVec 16) (s : State) : (lowerUse i s).chans = s.chans := by
  unfold lowerUse changeUse
  split <;> rfl

theorem lowerAll_chans (q : List Entry) (s : State) : (q.foldl (fun s e => lowerUse e.seg s) s).chans = s.chans := by
  induction q generalizing s with
  | nil => rfl
  | cons e rest ih => rw [List.foldl_cons, ih, lowerUse_chans]

theorem flushChannel_ctx (c : Chan) (s : State) : ((flushChannel c s).chan c).ctx = (s.chan c).ctx := by
  unfold flushChannel
  split
  · show ((State.setChan _ c _).chan c).ctx = _
    rw [State.chan_setChan_self]
    show (State.chan _ c).ctx = _
    unfold State.chan
    rw [lowerAll_chans]
  · show ((State.setChan _ c _).chan c).ctx = _
    rw [State.chan_setChan_self]

theorem moveOn_noneEnded (offer : Option (Nat × BitVec 32)) (c : Chan) (s : State) (h : NoneEnded (s.chan c)) :
    NoneEnded ((moveOn offer c s).chan c) := by
  have idle : ∀ u : State, NoneEnded (u.chan c) → NoneEnded ((goIdleEmpty c (emptyWindow c u)).chan c) := by
    intro u hu x hx
    refine hu x ?_
    simpa [goIdleEmpty, emptyWindow, State.setSt, State.setFetch] using hx
  unfold moveOn
  split
  · refine idle _ fun x hx => h x ?_
    rwa [flushChannel_ctx] at hx
  · dsimp only
    have ha := activateFrom_noneEnded offer c (s.chan c).queue s h
    split
    · intro x hx
      refine ha x ?_
      rw [(fetchIssue_issueFrame c _).self] at hx
      exact hx
    · exact idle _ ha

theorem releaseActive_ctx (c : Chan) (s : State) : ((releaseActive c s).chan c).ctx = none := by
  simp only [releaseActive, placeReturned, placeHead_ctx, State.setFetch, State.chan_setChan_self, releaseCtx, markerOff]

/-- The completion actions leave no ended entry at the channel (R26). -/
theorem endWaits_completeEntry (c : Chan) (s : State) : endWaits (completeEntry c s) c = false := by
  have moved : ∀ o (u : State), endWaits (moveOn o c (releaseActive c u)) c = false := by
    intro o u
    have h := moveOn_noneEnded o c (releaseActive c u) fun x hx => by
      rw [releaseActive_ctx] at hx; cases hx
    unfold endWaits
    split
    · next x hx => rw [h x hx]; rfl
    · rfl
  unfold completeEntry
  split
  · next hx => unfold endWaits; rw [hx]
  · next x hx =>
    split
    · next hd => unfold endWaits; rw [hx]; simp [hd]
    · exact moved _ _

/-- With no ended entry they change nothing. -/
theorem completeEntry_of_none {c : Chan} {s : State} (h : endWaits s c = false) : completeEntry c s = s := by
  unfold endWaits at h
  unfold completeEntry
  split
  · rfl
  · next x hx =>
    rw [hx] at h
    split
    · rfl
    · next hd => simp [hd] at h

/-- They leave the entries of the other channels alone. -/
theorem endWaits_completeEntry_of_ne {c d : Chan} (s : State) (h : d ≠ c) :
    endWaits (completeEntry c s) d = endWaits s d := by
  have e := ((completeEntry_lane c s).others d h).1
  unfold endWaits
  rw [e]

/-- Where several channels are met at once, the first of them that has ended is met as its completion actions leave it: an
act on s is that act on what they make of s (R26). -/
theorem completeMembers_first {m : Quad Bool} {c : Chan} {s : State} (hm : m.get c = true)
    (h : ∀ d, d < c → m.get d = true → endWaits s d = false) :
    completeMembers m (completeEntry c s) = completeMembers m s := by
  let f : State → Chan → State := fun u d => if m.get d then completeEntry d u else u
  have pass : ∀ (u : State) (d : Chan), (m.get d = true → endWaits u d = false) → f u d = u := by
    intro u d hu
    simp only [f]
    split
    · next hd => exact completeEntry_of_none (hu hd)
    · rfl
  have before : ∀ d, d < c → f s d = s ∧ f (completeEntry c s) d = completeEntry c s := fun d hd =>
    ⟨pass s d (h d hd), pass _ d fun hg => by
      rw [endWaits_completeEntry_of_ne s (Fin.ne_of_lt hd)]; exact h d hd hg⟩
  have here : f s c = completeEntry c s := if_pos hm
  have again : f (completeEntry c s) c = completeEntry c s := pass _ c fun _ => endWaits_completeEntry c s
  show four.foldl f (completeEntry c s) = four.foldl f s
  have at_ : ∀ l r : List Chan, (∀ d ∈ l, d < c) → (l ++ c :: r).foldl f (completeEntry c s) = (l ++ c :: r).foldl f s := by
    intro l r hl
    induction l with
    | nil => simp only [List.nil_append, List.foldl_cons, here, again]
    | cons d l ih =>
      simp only [List.cons_append, List.foldl_cons]
      rw [(before d (hl d (.head _))).1, (before d (hl d (.head _))).2]
      exact ih fun e he => hl e (.tail _ he)
  match c with
  | 0 => exact at_ [] [1, 2, 3] (by decide)
  | 1 => exact at_ [0] [2, 3] (by decide)
  | 2 => exact at_ [0, 1] [3] (by decide)
  | 3 => exact at_ [0, 1, 2] [] (by decide)

theorem ready_completeEntry {c : Chan} {s : State} (h : Ready s) : Ready (completeEntry c s) := by
  have r := (completeEntry_lane c s).rest
  obtain ⟨h1, h2, h3, h4, h5, h6⟩ := h
  refine ⟨?_, ?_, ?_, ?_, ?_, ?_⟩ <;> rw [r] <;> assumption

/-- An operation whose rule takes the completion actions of a channel first is carried out alike behind them (R26). -/
theorem controlCell_completed {cell : CtlCell} {c : Chan} {s : State} (h : Ready s)
    (hrun : runOp cell (completeEntry c (controlTaken s)) = runOp cell (controlTaken s)) :
    receiveGood (.control cell) (completeEntry c s) = receiveGood (.control cell) s := by
  rw [controlCell_of_ready cell s h, controlCell_of_ready cell _ (ready_completeEntry h), ← completeEntry_controlTaken, hrun]

end Sys2Proof.Machine
end

