-- ==== Sys2Proof/Laws/Grants.lean ====
section
/-! SUPPORT. What an arbiter's decision gives, at a CLOSED and at an OPEN bank, as `ArbiterChooses` says it
(R95, R96, R99, R100). -/

namespace Sys2Proof.Machine


theorem findIdx?_of_find? {α : Type} {p : α → Bool} {l : List α} {x : α} (h : l.find? p = some x) :
    ∃ i, l.findIdx? p = some i ∧ l[i]? = some x := by
  induction l with
  | nil => cases h
  | cons a l ih =>
    rw [List.find?_cons] at h
    rw [List.findIdx?_cons]
    split at h
    · next ha => rw [if_pos ha]; exact ⟨0, rfl, by simpa using h⟩
    · next ha =>
      obtain ⟨i, hi, hx⟩ := ih h
      rw [if_neg (by simp [ha]), hi]
      exact ⟨i + 1, rfl, by simpa using hx⟩

/-- What the request of one fetch class is, by the round robin: the first bidder behind the pointer, and its earliest-issued
burst that waits here (R100). -/
theorem fetchChoice_eq (s : State) (b : BankNo) (w : Bool) :
    let bids : Chan → Prop := fun c => hungry (s.chan c).fetch = w ∧
      ∃ r ∈ (s.chan c).fetch.outs, decide (r.st = .waiting ∧ bankOf r.addr = b) = true
    ((∀ c, ¬bids c) → fetchChoice s b w = none) ∧
    ∀ c r, bids c → (∀ d, bids d → (c - (s.bank b).rr - 1).val ≤ (d - (s.bank b).rr - 1).val) →
      (s.chan c).fetch.outs.find? (fun r => decide (r.st = .waiting ∧ bankOf r.addr = b)) = some r →
      fetchChoice s b w = some (.fetch c r.addr) := by
  intro bids
  let f : Chan → Option Req := fun c =>
    if hungry (s.chan c).fetch = w then
      match waitingRec b (s.chan c).fetch.outs with
      | some i => ((s.chan c).fetch.outs[i]?).map fun r => Req.fetch c r.addr
      | none => none
    else none
  have hnone : ∀ c, ¬bids c → f c = none := by
    intro c hc
    simp only [f]
    split
    · next h =>
      have : waitingRec b (s.chan c).fetch.outs = none := by
        rw [waitingRec, List.findIdx?_eq_none_iff]
        intro r hr
        by_contra hx
        exact hc ⟨h, r, hr, by rw [Bool.decide_and]; simpa using hx⟩
      rw [this]
    · rfl
  have hsome : ∀ c r, bids c →
      (s.chan c).fetch.outs.find? (fun r => decide (r.st = .waiting ∧ bankOf r.addr = b)) = some r →
      f c = some (.fetch c r.addr) := by
    intro c r hc hr
    simp only [f, if_pos hc.1]
    simp only [Bool.decide_and] at hr
    obtain ⟨i, hi, hx⟩ := findIdx?_of_find? hr
    simp [waitingRec, hi, hx]
  have hf : fetchChoice s b w = [(s.bank b).rr + 1, (s.bank b).rr + 2, (s.bank b).rr + 3, (s.bank b).rr].findSome? f := rfl
  rw [hf]
  generalize (s.bank b).rr = p
  refine ⟨fun h => ?_, fun c r hc hmin hr => ?_⟩
  · simp [hnone _ (h _)]
  · have hc' := hsome c r hc hr
    have before : ∀ d, (d - p - 1).val < (c - p - 1).val → f d = none := fun d hd =>
      hnone d fun hb => absurd (hmin d hb) (by omega)
    have place : ∀ p c : Chan, c = p + 1 ∨ c = p + 2 ∨ c = p + 3 ∨ c = p := by decide
    have order : ∀ p : Chan, (p + 1 - p - 1).val < (p + 2 - p - 1).val ∧ (p + 2 - p - 1).val < (p + 3 - p - 1).val ∧
        (p + 3 - p - 1).val < (p - p - 1).val := by decide
    obtain ⟨o1, o2, o3⟩ := order p
    rcases place p c with rfl | rfl | rfl | rfl
    · simp [hc']
    · simp [hc', before (p + 1) o1]
    · simp [hc', before (p + 1) (by omega), before (p + 2) o2]
    · simp [hc', before (c + 1) (by omega), before (c + 2) (by omega), before (c + 3) o3]

/-- What an arbiter's decision at a free bank gives (R99, R100). -/
theorem decideBank_chooses (b : BankNo) (s : State) (hr : s.resetLow = false) (hp : s.part = .active)
    (hw : (s.bank b).work = none) (hc : (s.bank b).ctrl = .closed ∨ ∃ row, (s.bank b).ctrl = .opened row) :
    ArbiterChooses s b (s.bank b).ctrl (s.bank b).debt (decideBank b s) := by
  have hfree : ((s.bank b).isFree && decide (s.part = .active) && !s.resetLow) = true := by
    rcases hc with h | ⟨row, h⟩ <;> simp [Bank.isFree, hw, h, hp, hr]
  have hd : decideBank b s = match choose s b with
      | some r => grant b r s
      | none => s := by
    unfold decideBank; exact if_pos hfree
  have hh : ∀ c, decide ((s.chan c).fetch.window.length - (s.chan c).fetch.stale < 32 ∧ (s.chan c).fetch.cursor ≠ none)
      = hungry (s.chan c).fetch := fun c => by
    unfold hungry wordsAhead
    cases (s.chan c).fetch.cursor <;> simp
  obtain ⟨f1, f2⟩ := fetchChoice_eq s b true
  obtain ⟨g1, g2⟩ := fetchChoice_eq s b false
  have listed : ∀ r, (∀ c a, r ≠ .fetch c a) → choose s b = some r →
      ((decideBank b s).bank b).ctrl = workBegins s b (s.bank b).ctrl r ∧
      ((decideBank b s).bank b).work =
        some { req := r, closePage := decide (s.store.policy = .closePage), closeAfter := false } ∧
      ((decideBank b s).bank b).waiting = (s.bank b).waiting.erase r ∧ ((decideBank b s).bank b).rr = (s.bank b).rr ∧
      ∀ c, (decideBank b s).chan c = s.chan c := by
    intro r hn h
    rw [hd, h]
    dsimp only
    rw [bank_grant]
    cases r <;> first | exact absurd rfl (hn _ _) | exact ⟨rfl, rfl, rfl, rfl, fun _ => rfl⟩
  have fetched : ∀ c r, choose s b = some (.fetch c r.addr) →
      (s.chan c).fetch.outs.find? (fun r => decide (r.st = .waiting ∧ bankOf r.addr = b)) = some r →
      ((decideBank b s).bank b).ctrl = workBegins s b (s.bank b).ctrl (.fetch c r.addr) ∧
      ((decideBank b s).bank b).work =
        some { req := .fetch c r.addr, closePage := decide (s.store.policy = .closePage), closeAfter := false } ∧
      ((decideBank b s).bank b).rr = c ∧ ((decideBank b s).bank b).waiting = (s.bank b).waiting ∧
      (∀ d, d ≠ c → (decideBank b s).chan d = s.chan d) ∧
      ∃ i, (s.chan c).fetch.outs[i]? = some r ∧ (decideBank b s).chan c = { s.chan c with
        fetch := { (s.chan c).fetch with outs := (s.chan c).fetch.outs.set i { r with st := .granted } } } := by
    intro c r h hf
    simp only [Bool.decide_and] at hf
    obtain ⟨i, hi, hx⟩ := findIdx?_of_find? hf
    rw [hd, h]
    dsimp only
    rw [bank_grant]
    refine ⟨rfl, rfl, rfl, rfl, fun d hdc => State.chan_setChan_of_ne _ _ hdc, i, hx, ?_⟩
    simp only [grant, State.chan_setChan_self, waitingRec, hi]
    obtain ⟨hl, he⟩ := List.getElem?_eq_some_iff.1 hx
    rw [List.modify_eq_set_getElem? , hx]; rfl
  unfold ArbiterChooses
  simp only [hh]
  have cls3 : isClass3 = fun r => decide (reqClass r = 3) := funext fun r => by cases r <;> rfl
  have cls5 : isClass5 = fun r => decide (reqClass r = 5) := funext fun r => by cases r <;> rfl
  rw [cls3, cls5]
  have n4 : ∀ {r c a} , reqClass r = 3 ∨ reqClass r = 5 → r ≠ Req.fetch c a := by
    rintro r c a h rfl; simp [reqClass] at h
  have cr : choose s b = if 4 ≤ (s.bank b).debt then some .refresh else
      (fetchChoice s b true).or (((s.bank b).waiting.find? fun r => decide (reqClass r = 3)).or
        ((fetchChoice s b false).or (((s.bank b).waiting.find? fun r => decide (reqClass r = 5)).or
          (if 1 ≤ (s.bank b).debt then some .refresh else none)))) := rfl
  refine ⟨fun h => ?_, fun h => ⟨fun c r hc hmin hf => ?_, fun no2 => ⟨fun r hf => ?_, fun no3 => ⟨fun c r hc hmin hf => ?_,
    fun no4 => ⟨fun r hf => ?_, fun no5 => ⟨fun h1 => ?_, fun h0 => ?_⟩⟩⟩⟩⟩⟩
  · obtain ⟨a1, a2, a3⟩ := listed .refresh nofun (by rw [cr, if_pos h])
    exact ⟨⟨a1, a2⟩, a3⟩
  · have := f2 c r hc hmin hf
    obtain ⟨a1, a2, a3⟩ := fetched c r (by rw [cr, if_neg (by omega), this]; rfl) hf
    exact ⟨⟨a1, a2⟩, a3⟩
  all_goals rw [if_neg (show ¬4 ≤ (s.bank b).debt by omega), f1 no2, Option.none_or] at cr
  · have hcl := List.find?_some hf
    obtain ⟨a1, a2, a3⟩ := listed r (fun c a => n4 (.inl (of_decide_eq_true hcl))) (by rw [cr, hf]; rfl)
    exact ⟨⟨a1, a2⟩, a3⟩
  all_goals rw [List.find?_eq_none.2 fun r hr => by simp [no3 r hr], Option.none_or] at cr
  · have := g2 c r hc hmin hf
    obtain ⟨a1, a2, a3⟩ := fetched c r (by rw [cr, this]; rfl) hf
    exact ⟨⟨a1, a2⟩, a3⟩
  all_goals rw [g1 no4, Option.none_or] at cr
  · have hcl := List.find?_some hf
    obtain ⟨a1, a2, a3⟩ := listed r (fun c a => n4 (.inr (of_decide_eq_true hcl))) (by rw [cr, hf]; rfl)
    exact ⟨⟨a1, a2⟩, a3⟩
  all_goals rw [List.find?_eq_none.2 fun r hr => by simp [no5 r hr], Option.none_or] at cr
  · obtain ⟨a1, a2, a3⟩ := listed .refresh nofun (by rw [cr, if_pos h1])
    exact ⟨⟨a1, a2⟩, a3⟩
  · rw [hd, cr, if_neg (by omega)]
    exact ⟨hw, rfl, rfl, rfl, fun _ => rfl⟩

/-- How work begins depends on the links only. -/
theorem workBegins_congr {s u : State} (h : u.store.links = s.store.links) (b : BankNo) (before : Ctrl) (r : Req) :
    workBegins u b before r = workBegins s b before r := by
  have hr : ∀ row, rowServing u b row = rowServing s b row := fun row => by unfold rowServing; rw [h]
  have ho : rowOfBurst u b r = rowOfBurst s b r := by cases r <;> simp [rowOfBurst, hr]
  unfold workBegins
  rw [ho]

/-- A decision reads the requests that wait, the channels' bursts, the links and the policy. -/
theorem ArbiterChooses.congr {s u t : State} {b : BankNo} {before : Ctrl} {debt : Nat}
    (h : ArbiterChooses u b before debt t) (hc : u.chans = s.chans) (hw : (u.bank b).waiting = (s.bank b).waiting)
    (hr : (u.bank b).rr = (s.bank b).rr) (hl : u.store.links = s.store.links) (hp : u.store.policy = s.store.policy) :
    ArbiterChooses s b before debt t := by
  have hch : ∀ c, u.chan c = s.chan c := fun c => by unfold State.chan; rw [hc]
  unfold ArbiterChooses at h ⊢
  simp only [workBegins_congr hl, hch, hw, hr, hp] at h
  exact h

/-- A bank that reaches CLOSED with the part ACTIVE decides there and then (R95, R100). -/
theorem reachClosed_chooses (b : BankNo) (s : State) (hr : s.resetLow = false) (hp : s.part = .active) :
    ArbiterChooses s b .closed (s.bank b).debt (reachClosed b s) := by
  unfold reachClosed
  rw [if_pos hp]
  have h := decideBank_chooses b (s.setBank b { s.bank b with ctrl := .closed, work := none }) hr hp (by simp) (by simp)
  simp only [State.bank_setBank_self] at h
  exact h.congr rfl (by simp) (by simp) rfl rfl

/-- At the end of a burst that no close follows the bank stays open on its row and decides there and then (R97, R100). -/
theorem endBurst_chooses {b : BankNo} {row : Nat} {w : Work} {s : State} (hr : s.resetLow = false) (hp : s.part = .active)
    (hc : (s.bank b).ctrl = .opened row) (hw : (s.bank b).work = some w) (hk : w.closePage = false)
    (ha : w.closeAfter = false) : ArbiterChooses s b (.opened row) (s.bank b).debt (endBurst b s) := by
  have e : endBurst b s = decideBank b (s.setBank b { s.bank b with work := none }) := by
    simp [endBurst, hw, hk, ha, hp]
  rw [e]
  have h := decideBank_chooses b (s.setBank b { s.bank b with work := none }) hr hp (by simp) (.inr ⟨row, by simpa using hc⟩)
  rw [show ((s.setBank b { s.bank b with work := none }).bank b).ctrl = .opened row by simpa using hc,
    show ((s.setBank b { s.bank b with work := none }).bank b).debt = (s.bank b).debt by simp] at h
  exact h.congr rfl (by simp) (by simp) rfl rfl

end Sys2Proof.Machine
end

