-- ==== Sys2Proof/Laws/Material.lean ====
section
/-! SUPPORT. What a Fetch Unit does when the material of one tag is given up, and the records behind it are placed, is what
`materialGivenUp` says (R106, R107). -/

namespace Sys2Proof.Machine

theorem giveUp_tag (next : Bool) (outs : List FetchRec) :
    giveUp (fun r => r.next == next) outs = recordsKept next outs := by
  refine List.filterMap_congr fun r _ => ?_
  rcases r with ⟨n, a, f, l, st, d⟩
  cases st <;> cases n <;> cases next <;> simp

theorem giveUp_all (f : Fetch) : fetchReleaseAll f = fetchEmptied f := by
  have h : ∀ l : List FetchRec, giveUp (fun _ => true) l =
      (l.filter fun r => decide (r.st = .granted)).map fun r => { r with discard := true } := by
    intro l
    induction l with
    | nil => rfl
    | cons r rest ih =>
      rcases r with ⟨n, a, i, j, st, d⟩
      cases st <;> simp_all [giveUp]
  simp [fetchReleaseAll, fetchEmptied, h]

/-- The fold of `wordsDue` over the words of one record, begun anywhere. -/
def dueFold (l : List (Sample × Bool × Bool)) (p : List FetchWord × Sample) : List FetchWord × Sample :=
  l.foldl (fun p w =>
    let v := if w.2.1 then p.2 else w.1
    (p.1 ++ [{ val := v, next := w.2.2 }], v)) p

theorem dueFold_append (l : List (Sample × Bool × Bool)) (win : List FetchWord) (v : Sample) :
    dueFold l (win, v) = (win ++ (dueFold l ([], v)).1, (dueFold l ([], v)).2) := by
  induction l generalizing win v with
  | nil => simp [dueFold]
  | cons w rest ih =>
    simp only [dueFold, List.foldl_cons, List.nil_append] at ih ⊢
    rw [ih, ih [_]]
    simp

theorem placeWords_eq (next : Bool) (ws : List (Sample × Bool)) (p : List FetchWord × Sample) :
    placeWords next ws p = dueFold (ws.map fun w => (w.1, w.2, next)) p := by
  induction ws generalizing p with
  | nil => rfl
  | cons w rest ih =>
    rcases w with ⟨v, bad⟩
    rcases p with ⟨win, sub⟩
    cases bad <;> simp [placeWords, ih, dueFold]

theorem dueFold_length (l : List (Sample × Bool × Bool)) (v : Sample) (q : Bool → Bool) :
    (dueFold l ([], v)).1.countP (fun w => q w.next) = l.countP fun w => q w.2.2 := by
  induction l generalizing v with
  | nil => rfl
  | cons w rest ih =>
    have e : dueFold (w :: rest) ([], v) = dueFold rest ([⟨if w.2.1 then v else w.1, w.2.2⟩], if w.2.1 then v else w.1) := by
      simp [dueFold]
    rw [e, dueFold_append]
    simp [ih, List.countP_cons, Nat.add_comm]

/-- The channel with the words of its first record placed, if that has RETURNED (R106). -/
def headPlaced (ch : Channel) : Channel :=
  match ch.fetch.outs with
  | [] => ch
  | r :: rest =>
    match r.st with
    | .returned ws =>
      let d := dueFold (ws.map fun w => (w.1, w.2, r.next)) ([], ch.subst)
      let late := if r.next then 0 else min ch.fetch.owed ws.length
      { ch with
        subst := d.2
        fetch := { ch.fetch with window := ch.fetch.window ++ d.1, outs := rest, stale := ch.fetch.stale + late,
                                 owed := ch.fetch.owed - late } }
    | _ => ch

theorem State.setChan_setChan (s : State) (c : Chan) (x y : Channel) : (s.setChan c x).setChan c y = s.setChan c y := by
  have h : (s.chans.set c x).set c y = s.chans.set c y := by
    fin_cases c <;> rfl
  simp [State.setChan, h]

theorem placeHead_setChan (c : Chan) (s : State) (x : Channel) :
    placeHead c (s.setChan c x) = s.setChan c (headPlaced x) := by
  simp only [placeHead, headPlaced, State.chan_setChan_self]
  cases x.fetch.outs with
  | nil => rfl
  | cons r rest =>
    cases hr : r.st with
    | returned ws =>
      simp only [hr]
      rw [placeWords_eq, dueFold_append]
      simp only [State.setChan_setChan]
    | _ => simp only [hr]

/-- Material of one tag is given up and the records then due are placed: one act on the channel (R106, R107). -/
theorem placeReturned_release (next : Bool) (c : Chan) (s : State) :
    placeReturned c (s.setFetch c (fetchReleaseTag next (s.chan c).fetch)) =
      s.setChan c (materialGivenUp next (s.chan c)) := by
  unfold placeReturned State.setFetch
  rw [placeHead_setChan, placeHead_setChan]
  congr 1
  generalize s.chan c = a
  have two (p q : List (Sample × Bool × Bool)) (v : Sample) :
      dueFold (p ++ q) ([], v) =
        ((dueFold p ([], v)).1 ++ (dueFold q ([], (dueFold p ([], v)).2)).1, (dueFold q ([], (dueFold p ([], v)).2)).2) := by
    have e : dueFold (p ++ q) ([], v) = dueFold q (dueFold p ([], v)) := List.foldl_append ..
    rw [e, ← dueFold_append]
  have cur : cursorOff next a.fetch.cursor =
      if a.fetch.cursor.any fun k => k.next == next then none else a.fetch.cursor := by
    cases a.fetch.cursor <;> simp [cursorOff]
  have count (ws : List (Sample × Bool)) (n : Bool) (v : Sample) :
      (dueFold (ws.map fun w => (w.1, w.2, n)) ([], v)).1.countP (fun w => !w.next) = if n then 0 else ws.length := by
    rw [dueFold_length _ v (fun b => !b)]
    cases n <;> simp
  simp only [fetchReleaseTag, giveUp_tag, materialGivenUp, cur]
  have due (l : List FetchRec) (v : Sample) : wordsDue l v = dueFold (l.flatMap fun r => match r.st with
    | .returned ws => ws.map fun w => (w.1, w.2, r.next)
    | _ => []) ([], v) := rfl
  cases hk : recordsKept next a.fetch.outs with
  | nil => cases next <;> simp [headPlaced, recordsDue, due, dueFold]
  | cons r rest =>
    rcases r with ⟨rn, ra, rf, rl, rst, rd⟩
    cases rst with
    | waiting => cases next <;> simp [headPlaced, recordsDue, due, dueFold]
    | granted => cases next <;> simp [headPlaced, recordsDue, due, dueFold]
    | returned ws =>
      cases rest with
      | nil => cases next <;> cases rn <;> simp [headPlaced, recordsDue, due, count]
      | cons r2 more =>
        rcases r2 with ⟨qn, qa, qf, ql, qst, qd⟩
        cases qst with
        | waiting => cases next <;> cases rn <;> simp [headPlaced, recordsDue, due, count]
        | granted => cases next <;> cases rn <;> simp [headPlaced, recordsDue, due, count]
        | returned qs =>
          cases next <;> cases rn <;> cases qn <;>
            (simp [headPlaced, recordsDue, due, two, count, List.countP_append]; try omega)

/-- Everything is given up (R107). -/
theorem emptyWindow_eq (c : Chan) (s : State) : emptyWindow c s = s.setFetch c (fetchEmptied (s.chan c).fetch) := by
  rw [← giveUp_all]; rfl

end Sys2Proof.Machine
end

