-- ==== Sys2Proof/Laws/Weak.lean ====
section
/-! SUPPORT. The weak row list: one outcome recorded in it does what `WeakRecords` says (R126). -/

namespace Sys2Proof.Machine

theorem findIdx?_split {α : Type} {p : α → Bool} {x : α} (pre post : List α) (hx : p x = true)
    (h : ∀ y ∈ pre, p y = false) : (pre ++ x :: post).findIdx? p = some pre.length := by
  have n : pre.findIdx? p = none := List.findIdx?_eq_none_iff.mpr h
  rw [List.findIdx?_append, n, List.findIdx?_cons]
  simp [hx]

theorem weakIndex_split {b : BankNo} {r : Nat} {x : Weak} (pre post : List Weak) (hx : x.bank = b ∧ x.row = r)
    (h : ∀ y ∈ pre, ¬(y.bank = b ∧ y.row = r)) : weakIndex (pre ++ x :: post) b r = some pre.length :=
  findIdx?_split pre post (decide_eq_true hx) fun y hy => decide_eq_false (h y hy)

theorem weakIndex_none {b : BankNo} {r : Nat} {l : List Weak} (h : ∀ y ∈ l, ¬(y.bank = b ∧ y.row = r)) :
    weakIndex l b r = none := by
  simpa [weakIndex, List.findIdx?_eq_none_iff] using h

theorem modify_split {α : Type} (f : α → α) (x : α) (pre post : List α) :
    (pre ++ x :: post).modify pre.length f = pre ++ f x :: post := by
  induction pre with
  | nil => rfl
  | cons y pre ih => simp [ih]

/-- The end of a record, once the row has its entry: the count of a bad outcome, and the flag. -/
theorem weakFlag_split {th : BitVec 8} {b : BankNo} {r : Nat} {x : Weak} (pre post : List Weak)
    (hx : x.bank = b ∧ x.row = r) (h : ∀ y ∈ pre, ¬(y.bank = b ∧ y.row = r)) :
    (match weakIndex (pre ++ x :: post) b r with
      | none => (pre ++ x :: post, false)
      | some i => match (pre ++ x :: post)[i]? with
        | some w => if !w.flagged && decide (th.toNat ≤ w.count.toNat) then
            ((pre ++ x :: post).modify i fun w => { w with flagged := true }, true) else (pre ++ x :: post, false)
        | none => (pre ++ x :: post, false)) =
      (pre ++ { x with flagged := x.flagged || decide (th.toNat ≤ x.count.toNat) } :: post,
        !x.flagged && decide (th.toNat ≤ x.count.toNat)) := by
  have g : (pre ++ x :: post)[pre.length]? = some x := by simp
  simp only [weakIndex_split pre post hx h, g, modify_split]
  obtain ⟨xb, xr, xc, xf⟩ := x
  cases xf <;> by_cases k : th.toNat ≤ xc.toNat <;> simp [k]

/-- A record whose raised list holds the row's entry x behind pre. -/
theorem weakRecord_split {l : List Weak} {th : BitVec 8} {b : BankNo} {r : Nat} {bad : Bool} {x : Weak}
    (pre post : List Weak) (e : weakRaise l b r = some (pre ++ x :: post)) (hx : x.bank = b ∧ x.row = r)
    (h : ∀ y ∈ pre, ¬(y.bank = b ∧ y.row = r)) :
    let n : BitVec 8 := if bad then 255 else x.count
    weakRecord l th b r bad =
      (pre ++ { x with count := n, flagged := x.flagged || decide (th.toNat ≤ n.toNat) } :: post,
        !x.flagged && decide (th.toNat ≤ n.toNat)) := by
  cases bad with
  | false =>
    simp only [weakRecord, e]
    exact weakFlag_split (th := th) pre post hx h
  | true =>
    simp only [weakRecord, e, weakIndex_split pre post hx h, modify_split]
    exact weakFlag_split (th := th) (x := { x with count := 255 }) pre post hx h

/-- The victim of a full list: the oldest unflagged entry with the lowest count (R126). -/
theorem weakVictim_split {x : Weak} (pre post : List Weak) (hx : x.flagged = false)
    (h : ∀ y ∈ pre, y.flagged = false → x.count.toNat < y.count.toNat)
    (k : ∀ y ∈ post, y.flagged = false → x.count.toNat ≤ y.count.toNat) :
    weakVictim (pre ++ x :: post) = some pre.length := by
  have m : (((pre ++ x :: post).filter fun w => !w.flagged).map fun w => w.count.toNat).min? = some x.count.toNat := by
    rw [List.min?_eq_some_iff]
    refine ⟨List.mem_map_of_mem (List.mem_filter.mpr ⟨by simp, by simp [hx]⟩), fun n hn => ?_⟩
    obtain ⟨y, hy, rfl⟩ := List.mem_map.mp hn
    obtain ⟨hm, hf⟩ := List.mem_filter.mp hy
    have hf : y.flagged = false := by simpa using hf
    rcases List.mem_append.mp hm with hp | hp
    · exact (h y hp hf).le
    · rcases List.mem_cons.mp hp with rfl | hp
      · exact le_rfl
      · exact k y hp hf
  simp only [weakVictim, m]
  refine findIdx?_split pre post (by simp [hx]) fun y hy => ?_
  cases e : y.flagged with
  | true => rfl
  | false => simpa using (h y hy e).ne'

theorem weakVictim_none {l : List Weak} (h : ∀ x ∈ l, x.flagged = true) : weakVictim l = none := by
  have e : (l.filter fun w => !w.flagged) = [] := by simpa using h
  simp [weakVictim, e]

theorem eraseIdx_split {α : Type} (x : α) (pre post : List α) :
    (pre ++ x :: post).eraseIdx pre.length = pre ++ post := by
  induction pre with
  | nil => rfl
  | cons y pre ih => simp [ih]

/-- Everything that one outcome recorded for a row does to the weak row list (R126). -/
theorem weakRecord_records (th : BitVec 8) (b : BankNo) (r : Nat) (bad : Bool) (l : List Weak) :
    WeakRecords th b r bad l (weakRecord l th b r bad).1 (weakRecord l th b r bad).2 := by
  refine ⟨?_, fun h => ⟨fun hl => ?_, fun hl hf => ?_, ?_⟩⟩
  · rintro pre x post rfl hx h
    have e : weakRaise (pre ++ x :: post) b r =
        some (pre ++ { x with count := if x.count = 255 then 255 else x.count + 1 } :: post) := by
      simp only [weakRaise, weakIndex_split pre post hx h, modify_split]
    rw [weakRecord_split pre post e hx h]
    cases bad <;> by_cases q : x.count = 255 <;> simp [q]
  · have e : weakRaise l b r = some (l ++ [{ bank := b, row := r, count := 1, flagged := false }]) := by
      simp only [weakRaise, weakIndex_none h, weakAppend, hl, if_true]
    rw [weakRecord_split l [] e ⟨rfl, rfl⟩ h]
    cases bad <;> simp
  · have e : weakRaise l b r = none := by
      simp only [weakRaise, weakIndex_none h, weakAppend, weakVictim_none hf, if_neg (Nat.not_lt.mpr hl)]
    simp [weakRecord, e]
  · rintro pre x post hl rfl hx hp hq
    have e : weakRaise (pre ++ x :: post) b r =
        some ((pre ++ post) ++ [{ bank := b, row := r, count := 1, flagged := false }]) := by
      simp only [weakRaise, weakIndex_none h, weakAppend, weakVictim_split pre post hx hp hq, eraseIdx_split,
        if_neg (Nat.not_lt.mpr hl)]
    have h' : ∀ y ∈ pre ++ post, ¬(y.bank = b ∧ y.row = r) := fun y hy => h y (by
      rcases List.mem_append.mp hy with hy | hy <;> simp [hy])
    rw [weakRecord_split (pre ++ post) [] e ⟨rfl, rfl⟩ h']
    cases bad <;> simp

end Sys2Proof.Machine
end

