-- ==== Sys2Proof/WellFormed.lean ====
section
/-! DEFINITION. Which commands describe something that can happen at the part: a good cell is good, a bad cell bad,
an undefined kind or operation code is in no table, and no program reaches more bytes than a page has. All other
operands are bounded by their types. -/

namespace Sys2Proof

open Machine

def Instr.wellFormed : Instr → Bool
  | .powerOn reached _ _ => decide (reached ≤ 512)
  | .pinResetAssert reached _ _ => decide (reached ≤ 512)
  | .huntGoodCandidate cell => cellGood cell
  | .badCell cell => !cellGood cell
  | .undefinedKindCell kind => !knownKinds.contains kind.toNat
  | .undefinedOperation _ code => !knownCodes.contains code.toNat
  | .pinResetRelease => true
  | .startUpEnd => true
  | .trigRisingEdge => true
  | .triggerCell => true
  | .clockLock => true
  | .clockQualifiedStart => true
  | .clockLoss => true
  | .outputTick _ => true
  | .startTick => true
  | .entryCompletion _ => true
  | .presyncCell _ => true
  | .silenceTimerExpiry => true
  | .playCell _ _ => true
  | .streamCell _ _ _ _ => true
  | .loadCell _ => true
  | .controlCell _ => true
  | .fillCell => true
  | .upstreamCellStart => true
  | .refreshIntervalExpiry => true
  | .activationComplete _ => true
  | .closeComplete _ => true
  | .refreshComplete _ => true
  | .fetchBurstComplete _ _ => true
  | .loadWriteComplete => true
  | .loadCloseReadComplete _ => true
  | .storeReadBurstComplete _ => true
  | .retireCopyReadComplete _ => true
  | .retireCopyWriteComplete => true
  | .initWriteComplete _ => true
  | .calProgramComplete _ _ => true
  | .calLockComplete _ => true
  | .segDefine _ _ _ _ _ _ => true
  | .segDelete _ _ => true
  | .segLock _ _ _ => true
  | .segRead _ _ => true
  | .profileWrite _ _ _ _ _ _ => true
  | .profileClear _ _ => true
  | .profileRead _ _ => true
  | .start _ _ _ => true
  | .stop _ _ _ => true
  | .flush _ _ => true
  | .skip _ _ => true
  | .channelSet _ _ _ _ _ _ _ _ _ _ _ => true
  | .channelRead _ _ => true
  | .curveWrite _ _ _ _ _ => true
  | .curveCommit _ _ _ => true
  | .curveRead _ _ _ _ _ => true
  | .curveLoad _ _ _ => true
  | .calRead _ _ _ _ => true
  | .calProgram _ _ => true
  | .calLock _ => true
  | .loadOpen _ _ _ => true
  | .loadClose _ => true
  | .storeRead _ _ _ => true
  | .storeSet _ _ _ => true
  | .storeInit _ => true
  | .retireRow _ _ _ => true
  | .weakRead _ _ => true
  | .remapRead _ _ _ => true
  | .faultRead _ => true
  | .eventsSet _ _ => true
  | .standbyEnter _ => true
  | .standbyExit _ => true
  | .status _ => true
  | .counters _ _ _ => true
  | .softReset _ => true

end Sys2Proof
end

