-- ==== Sys2Proof/Tests/Slice0.lean ====
section
/-! SUPPORT. Our own tests: the checks of WellFormed refuse an ill-formed term each, worked examples of the spec, and
for every statement with hypotheses the states and operands that meet them, clause by clause (`meets_<statement>`). -/

namespace Sys2Proof.Tests

open Sys2Proof Sys2Proof.Machine

/-! ### Small states -/

/-- A part that takes operations, its store READY and empty. -/
def ready0 : State :=
  { State.reset with startingUp := false, lrx := { lrxReset with deln := .sync }, store := { storeReset with state := .ready } }

def ch0 : Channel := channelReset identityCurve
def unity : Profile := { interp := .nearest, gain := 16384, offset := 0, curve := .apply }
def free32 : Desc := { base := 0, length := 32, loop := none, locked := false, use := 0 }
def used32 : Desc := { free32 with use := 1 }
def locked32 : Desc := { free32 with locked := true }
/-- An entry of segment 3 with profile 2, NOTIFY and MARK. -/
def entry3 : Entry :=
  { seg := 3, prof := 2, passes := 1, incI := 1, incF := 0, markWidth := 4, splice := false, notify := true, mark := true,
    start := none }
def ctx3 : Ctx := { entry := entry3, snap := unity, i := 0, f := 0, passes := 1, marker := 4, done := none }
def startCell : StreamCell := { start := true, last := false, data := 5 }
def midCell : StreamCell := { startCell with start := false }
def stream0 : Stream := { snap := unity, prof := 2, incI := 1, incF := 0, i := 0, f := 0, endPos := none }
def streamCfg : ChanCfg := { cfgReset with mode := .stream, prof := 2 }
def words (n : Nat) : List FetchWord := (List.range n).map fun k => { val := BitVec.ofNat 16 k, next := false }

/-- Channels 0 to 3 as given, segment 3 in use, profile 2 present, the clock LOCKED. -/
def lanes (a b c d : Channel) : State :=
  { ready0 with
    chans := ⟨a, b, c, d⟩, segs := [(3, used32)], profs := [(2, unity)], ckc := { st := .locked, lockCount := 4096 } }

/-- A channel that plays `ctx3` with two words in its window. -/
def playing : Channel := { ch0 with st := .running, ctx := some ctx3, fetch := { fetchReset with window := words 2 } }
def streaming : Channel := { ch0 with st := .running, cfg := streamCfg, stream := some stream0, intake := [startCell, midCell] }

def reply0 : Reply := { op := 0x50, tag := 7, status := .ok, data := [1] }
def event0 : EvEntry := { src := .clock, kind := .clockState, count := 1, detail := 2, status := .ok }

/-- One segment of each kind: 3 in use, 4 locked, 5 free. -/
def segs0 : State := { ready0 with segs := [(3, used32), (4, locked32), (511, free32)] }

/-! ### WellFormed refuses an ill-formed term of each of its checks -/

theorem test_power_on_reaches_at_most_a_page : (Instr.powerOn 513 0 false).wellFormed = false := by decide
theorem test_pin_reset_reaches_at_most_a_page : (Instr.pinResetAssert 513 0 false).wellFormed = false := by decide
/-- x^16 divided by the generator leaves x^15 + x^2 + 1, and the byte 0x01 is x^16 once 16 zeros follow it (R143). -/
theorem test_check_code_of_one : checkCode [true] = 0x8005 ∧ crc [1] = 0x8005 := by decide +kernel

/-- The check code passes over leading zero bytes (R85: initial value 0). -/
theorem crc_zeros (n : Nat) (l : List Byte) : crc (List.replicate n 0 ++ l) = crc l := by
  induction n with
  | zero => rfl
  | succ n ih =>
    have h : crcByte 0#16 0#8 = 0#16 := by decide
    rw [← ih]
    show List.foldl crcByte (crcByte 0#16 0#8) (List.replicate n 0 ++ l) = _
    rw [h]
    rfl

/-- A good cell: byte 35 is 1 and its check code 0x8005, the generator of R143. -/
def goodCell : Cell := 0x018005

theorem goodCell_good : cellGood goodCell = true := by
  have h : bytesFrom 38 goodCell 0 36 = List.replicate 35 0 ++ [1] := by decide +kernel
  have g : crc [1] = goodCell.extractLsb' 0 16 := by decide +kernel
  have n : goodCell ≠ 0 := by decide +kernel
  unfold cellGood
  rw [h, crc_zeros, g]
  exact Bool.and_eq_true_iff.mpr ⟨decide_eq_true rfl, decide_eq_true n⟩

theorem cell_zero_bad : cellGood 0 = false := by simp [cellGood]

theorem test_hunt_candidate_is_good : (Instr.huntGoodCandidate 0).wellFormed = false := cell_zero_bad
theorem test_bad_cell_is_bad : (Instr.badCell goodCell).wellFormed = false := by
  simp [Instr.wellFormed, goodCell_good]
theorem test_known_kind_is_not_undefined : (Instr.undefinedKindCell 15).wellFormed = false := by decide
theorem test_known_code_is_not_undefined : (Instr.undefinedOperation 0 0x52).wellFormed = false := by decide
theorem test_page_end_is_well_formed : (Instr.powerOn 512 0 false).wellFormed = true := by decide
theorem test_unknown_code_is_well_formed : (Instr.undefinedOperation 0 0x53).wellFormed = true := by decide

/-! ### Words of the table: no row has bits -/

theorem test_no_row_has_bits : decodeTableWord 8 0x52 = none := by decide
theorem test_fetch_word_changes_nothing : ready0.withFetchWord 8 0x52 = ready0 := rfl

/-! ### Worked examples of the spec -/

/-- R51: −65534 as the smallest scaled value, 65536 as the largest (R50). -/
theorem test_gain_extremes : applyGain (-32768) (-32768) = 65536 ∧ applyGain 32767 (-32768) = -65534 := by decide
/-- R53: the top of the identity curve. -/
theorem test_identity_top : evalCurve identityCurve 32767 = 32767 := by decide
/-- R13: −70,000 is stored as −65536. -/
theorem test_offset_saturates :
    (match exec (.profileWrite 1 2 0 16384 (BitVec.ofInt 32 (-70000)) 0) ready0 with
      | .next t => (t.profile 2).map fun p => p.offset.toInt
      | _ => none) = some (-65536) := by decide
/-- R80: a write of 200,000, −140,000 and 5. -/
theorem test_curve_write_saturates :
    (match exec (.curveWrite 1 0 0 3 ((200000#192 <<< 168) ||| ((BitVec.ofInt 24 (-140000)).setWidth 192 <<< 144) |||
        (5#192 <<< 120))) ready0 with
      | .next t => some ((((t.chan 0).pendCurve.take 3).map fun v => v.toInt), t.ltx.replies.map fun r => r.data)
      | _ => none) = some ([131071, -131072, 5], [[2]]) := by decide +kernel
/-- R119: the ninth interval without a refresh overruns. -/
theorem test_ninth_interval_overruns :
    (match exec .refreshIntervalExpiry (ready0.setBank 1 { bankReset with debt := 8, work := some ⟨.closeRead 16, false, false⟩ }) with
      | .next t => some ((t.bank 1).debt, (t.bank 1).overruns, t.store.suspect)
      | _ => none) = some (8, 1, true) := by decide
/-- R64: a channel gone IDLE under HOLD_LAST at 25000 shows 57768; limits of −20000 to 20000 make that 52768. -/
theorem test_held_code_follows_its_limits :
    (match exec (.channelSet 1 0 0 1 0 0 (BitVec.ofInt 16 (-20000)) 20000 0 1 0)
        (lanes { ch0 with held := 25000 } ch0 ch0 ch0) with
      | .next t => some (t.chan 0).port.code
      | _ => none) = some 52768 := by decide
/-- 12: a fill cell goes out when nothing waits; its credit report is class 0's. -/
theorem test_fill_goes_out :
    (match exec .upstreamCellStart ready0 with
      | .next t => (match t.ltx.line with
        | .cell c => some (c.extractLsb' 296 8)
        | _ => none)
      | _ => none) = some 0xF0 := by decide +kernel

/-! ### The hypotheses of the statements are met -/

theorem meets_StepTakesTheFrontCommand :
    ({ ready0 with pending := [.fillCell, .startTick] } : State).pending = .fillCell :: [.startTick] ∧
      ready0.pending = [] := by decide

/-- A part with something in every queue that the laws speak of. -/
def busy0 : State :=
  let s := lanes { playing with queue := [entry3] } { streaming with st := .armed } ch0 ch0
  { s with
    segs := [(3, { used32 with use := 2 })],
    groups := ⟨none, some ⟨⟨false, true, false, false⟩, .trigger, true, false⟩, none, none⟩,
    lrx := { s.lrx with received := { PerClass.fill 0 with stream := ⟨0, 2, 0, 0⟩, play := ⟨1, 0, 0, 0⟩, load := 1 } },
    ldw := { window := some { base := 64, length := 16, next := 64, written := 0, accepting := true, tag := 9 },
             buffer := [7] },
    events := [{ src := .store, kind := .refreshOverrun, count := 1, detail := 0, status := .ok }],
    mgu := .executing (.storeRead 4 32 1 [] [] 32),
    cal := { s.cal with lock := true, lockMark := true },
    store := { s.store with
      mem := [(5, ⟨1, 0⟩), (9, ⟨2, 1⟩)], weak := [⟨1, 7, 3, false⟩], links := [⟨1, 7, 0, none, .factory, .active⟩],
      spares := ⟨sparesFree, sparesFree.set 0 .linked, sparesFree, sparesFree⟩,
      banks := ⟨{ bankReset with ctrl := .opened 0, work := some ⟨.loadWrite 64, false, false⟩, debt := 8 }, bankReset,
        { bankReset with waiting := [.mgmtRead 32] }, bankReset⟩ } }

theorem meets_EveryStepKeepsTheCreditLaw : CreditLaw busy0 ∧ ∃ t, step busy0 = .next t := by
  refine ⟨fun k => ?_, _, rfl⟩
  cases k with
  | stream c => revert c; decide
  | play c => revert c; decide
  | load => decide
  | control => decide

theorem meets_EveryStepKeepsTheQueuesInPlace : SlotLaw busy0 ∧ WindowLaw busy0 ∧ DebtLaw busy0 ∧ AskLaw busy0 := by
  refine ⟨by unfold SlotLaw; decide, by unfold WindowLaw; decide, by unfold DebtLaw; decide, ?_⟩
  have h : ∀ b q, Asked busy0 b q → q = .loadWrite 64 ∨ q = .mgmtRead 32 := by
    intro b q h
    fin_cases b <;> simp [Asked, State.bank, busy0, lanes, Quad.get, bankReset] at h
    · exact .inl h.symm
    · exact .inr h
  refine ⟨by decide, by decide, by decide, by decide, ?_, ?_, ?_, ?_⟩
  · intro b q hq hr
    rcases h b q hq with rfl | rfl <;> simp [Req.isRetireRead, Req.isRetireWrite] at hr
  · intro b a hq
    rcases h b _ hq with e | e <;> cases e
  · intro w hw
    cases hw
    decide
  · intro b w hc
    fin_cases b <;> cases hc

theorem meets_EveryStepKeepsTheRecordsInForm :
    EventLaw busy0 ∧ TableLaw busy0 ∧ RowLaw busy0 ∧ FormLaw busy0 ∧ ∃ t, step busy0 = .next t := by
  refine ⟨by unfold EventLaw; decide, by unfold TableLaw; decide, by unfold RowLaw; decide, ?_, _, rfl⟩
  exact ⟨by decide, by decide, by decide⟩

/-- The further premises of the same statement: codes within their limits, and the links with their spares. -/
theorem meets_EveryStepKeepsTheRecordsInForm_links :
    LimitLaw busy0 ∧ (∀ c, LaneInLimits busy0 c) ∧ LinkLaw busy0 ∧
      ready0.ckc.st = .noClock ∧ ready0.resetLow = false := by
  refine ⟨fun c v hv => ?_, fun c => ?_, ⟨by decide, fun b k => ?_, by decide, by decide, ?_, by decide⟩, rfl, rfl⟩
  · fin_cases c <;>
      simp [busy0, lanes, State.chan, Quad.get, playing, streaming, ch0, channelReset, cfgReset, streamCfg] at hv ⊢ <;>
      subst hv <;> decide
  · fin_cases c <;> exact ⟨by decide, by decide⟩
  · have n : namedSpares busy0 = [(1, 0)] := rfl
    rw [n]
    have free : sparesFree[k]? ≠ some .linked := fun e => absurd (List.mem_of_getElem? e) (by decide)
    by_cases h : b = 1
    · subst h
      show (sparesFree.set 0 .linked)[k]? = _ ↔ _
      rw [List.getElem?_set]
      by_cases k0 : k = 0
      · simp [k0, sparesFree]
      · simp [Ne.symm k0, k0, free]
    · have e : busy0.store.spares.get b = sparesFree := by fin_cases b <;> first | rfl | exact absurd rfl h
      simp [e, free, h]
  · intro r h
    cases h

theorem meets_EveryStepKeepsTheUseCounts :
    TableLaw busy0 ∧ SeqLaw busy0 ∧ UseLaw busy0 ∧ PhaseLaw busy0 ∧ ∃ t, step busy0 = .next t := by
  refine ⟨by unfold TableLaw; decide, ⟨by decide, by decide⟩, fun i => ?_, ⟨by decide, fun c => ⟨?_, ?_⟩⟩, _, rfl⟩
  rotate_left
  · revert c
    decide
  · revert c
    decide
  by_cases h : i = 3
  · subst h
    exact ⟨by decide, by decide⟩
  · have e : entriesNaming busy0 i = 0 := by
      simp [entriesNaming, busy0, lanes, four, State.chan, Quad.get, playing, streaming, ch0, channelReset, entry3, ctx3,
        Ne.symm h]
    have g : busy0.seg i = none := by simp [State.seg, busy0, tableGet, h]
    exact ⟨fun d hd => (by rw [g] at hd; cases hd), fun _ => e⟩

theorem meets_EveryStepKeepsWordsInUse : StoreUseLaw busy0 ∧ ∃ t, step busy0 = .next t := by
  refine ⟨⟨by decide, by decide⟩, _, rfl⟩

theorem meets_CalibrationNeverGoesBack :
    CalLaw busy0 ∧ (∃ t, step busy0 = .next t) ∧ busy0.pageState 1 ≠ .blank ∧ busy0.cal.lock = true := by
  refine ⟨⟨rfl, rfl, rfl, rfl, fun _ => rfl, fun _ => rfl, ?_, by decide⟩, ⟨_, rfl⟩, by decide, rfl⟩
  intro p image h
  cases h

theorem meets_InterpolationGainAndOffset :
    (0xFFFF#32).toNat < 65536 ∧ (5#16 = 5#16) ∧ (16384#16).toInt = 16384 ∧ (0xC000#16).toInt = -16384 ∧
      (0#16).toInt = 0 := by decide

theorem meets_CurveStaysBetweenBreakpoints :
    identityCurve.length = 33 ∧ (unity.interp = .nearest ∧ unity.gain = 16384 ∧ unity.offset = 0) ∧
      unity.curve = .apply ∧ ({ unity with curve := .bypass } : Profile).curve = .bypass ∧
      (0x8000#16).toInt ≤ (0x8000#16).toInt := by decide

theorem meets_SegDefineByItsChecks :
    ReadyActive segs0 ∧ 512 ≤ (512#16).toNat ∧ (511#16).toNat < 512 ∧
      (segs0.seg (3#16).toNat = some used32 ∧ 0 < used32.use) ∧
      (segs0.seg (4#16).toNat = some locked32 ∧ locked32.use = 0 ∧ locked32.locked = true) ∧
      (∀ d ∈ segs0.seg (511#16).toNat, d.use = 0 ∧ d.locked = false) ∧ segs0.seg (0#16).toNat = none := by decide

theorem meets_SegDeleteLockRead :
    ReadyActive segs0 ∧ 512 ≤ (512#16).toNat ∧ ((511#16).toNat < 512 ∧ 2 ≤ (2#8).toNat) ∧
      (segs0.seg (0#16).toNat = none ∧ (1#8).toNat < 2) ∧ segs0.seg (3#16).toNat = some used32 ∧
      segs0.seg (4#16).toNat = some locked32 ∧ segs0.seg (511#16).toNat = some free32 := by decide

theorem meets_ProfileWriteClearRead :
    ReadyActive (lanes ch0 ch0 ch0 ch0) ∧ 64 ≤ (64#8).toNat ∧
      ((63#8).toNat < 64 ∧ (2 ≤ (2#8).toNat ∨ 2 ≤ (1#8).toNat)) ∧ (1#8).toNat < 2 ∧
      (lanes ch0 ch0 ch0 ch0).profile 63 = none ∧ (lanes ch0 ch0 ch0 ch0).profile 2 = some unity := by decide

/-- Channel 0 with an entry, channel 1 HALTED and empty, channel 2 with a stream's first cells, channel 3 a member of
group 0. -/
def starting : State :=
  { lanes { ch0 with queue := [entry3] } { ch0 with st := .halted }
      { ch0 with cfg := streamCfg, intake := [startCell, midCell] } { ch0 with st := .priming } with
    groups := ⟨some ⟨⟨false, false, false, true⟩, .immediate, false, false⟩, none, none, none⟩ }

theorem meets_StartPrimesItsMembers :
    ReadyActive starting ∧ ((0#8) = 0 ∨ 16 ≤ (16#8).toNat ∨ 2 ≤ (2#8).toNat) ∧
      (0 < (7#8).toNat ∧ (15#8).toNat < 16 ∧ (1#8).toNat < 2) ∧
      (∀ c : Chan, (15#8).getLsbD c.val = true → endWaits starting c = false) ∧
      (∃ c : Chan, (8#8).getLsbD c.val = true ∧ (starting.chan c).st ≠ .idle ∧ (starting.chan c).st ≠ .halted) ∧
      (∀ c : Chan, (7#8).getLsbD c.val = true →
        ((starting.chan c).st = .idle ∨ (starting.chan c).st = .halted) ∧ (starting.chan c).ctx = none ∧
          ∀ k, ∀ x ∈ starting.groups.get k, x.members.get c = false) ∧
      (starting.groups.get 1 = none ∧ ∀ k, k < 1 → starting.groups.get k ≠ none) ∧
      (ready0.groups.get 0 = none) ∧
      ((starting.chan 1).cfg.mode = .play ∧ (starting.chan 1).queue = []) ∧
      ((starting.chan 2).cfg.mode = .stream ∧ (starting.chan 2).stream = none ∧
        (starting.chan 2).intake = startCell :: [midCell] ∧ startCell.start = true ∧ startCell.last = false ∧
        [midCell] = [] ++ midCell :: [] ∧ (∀ z ∈ [midCell], z.start = false ∧ z.last = false) ∧
        starting.profile (starting.chan 2).cfg.prof = some unity) ∧
      ((starting.chan 0).cfg.mode = .play ∧ (starting.chan 0).queue = entry3 :: [] ∧
        starting.profile entry3.prof = some unity) ∧
      (∀ c, (starting.chan c).fetch = fetchEmptied (starting.chan c).fetch) ∧
      entry3.startIdx < (starting.segOf entry3.seg).length := by decide

/-- An entry whose profile is absent. -/
def lost3 : Entry := { entry3 with prof := 63 }

/-- The discards at an activation: an entry behind a lost one, lost ones alone, and nothing queued. -/
theorem meets_StartPrimesItsMembers_discards :
    let s := lanes { ch0 with queue := [lost3, entry3] } { ch0 with queue := [lost3, lost3] } ch0 ch0
    ReadyActive s ∧ absentHead s 0 = [lost3] ∧ (s.chan 0).queue = absentHead s 0 ++ entry3 :: [] ∧
      s.profile entry3.prof = some unity ∧ (s.chan 1).queue = absentHead s 1 ∧ (s.chan 2).queue = absentHead s 2 ∧
      absentHead s 0 ≠ [] ∧ s.mask.getLsbD 4 = true ∧ (s.chan 0).cfg.mode = .play ∧
      (min ((absentHead s 0).length + 1) (s.chan 0).queue.length = 2 ∧
        min ((absentHead s 1).length + 1) (s.chan 1).queue.length = 2 ∧
        min ((absentHead s 2).length + 1) (s.chan 2).queue.length = 0) := by decide

/-- Ended entries at channels 1 and 2 beside channels that have none, for the operations and the event that meet them
completed: the lower one is the first of the members 0 to 3, and the higher one of the members 2 and 3. -/
theorem meets_operations_at_ended_entries :
    let ended : Channel := { playing with ctx := some { ctx3 with done := some (1, 7) } }
    let s : State := lanes playing ended ended ch0
    ReadyActive s ∧ (endWaits s 1 = true ∧ endWaits s 2 = true) ∧
      (0 < (15#8).toNat ∧ (15#8).toNat < 16 ∧ (1#8).toNat < 2) ∧
      ((15#8).getLsbD (1 : Chan).val = true ∧
        ∀ d : Chan, d < 1 → (15#8).getLsbD d.val = true → endWaits s d = false) ∧
      ((12#8).getLsbD (2 : Chan).val = true ∧
        ∀ d : Chan, d < 2 → (12#8).getLsbD d.val = true → endWaits s d = false) ∧
      (1#8).toNat = (1 : Chan).val ∧ (∀ d : Chan, d < 1 → endWaits s d = false) ∧ s.slots = ⟨none, none, none, none⟩ ∧
      s.ckc.st ≠ .noClock ∧ ∃ u, exec (.entryCompletion 1) s = .next u := by
  intro ended s
  exact ⟨by decide, by decide, by decide, by decide, by decide, by decide, by decide, rfl, by decide, _, rfl⟩

/-- R26: STOP AT_END, clock loss and SOFT_RESET find an ended entry completed: with nothing queued the channel is IDLE, so it
is not HALTED, and PLAY_DONE and QUEUE_EMPTY are posted; SOFT_RESET empties the event queue. -/
theorem test_operations_meet_the_channel_completed :
    let ended : Channel := { playing with ctx := some { ctx3 with done := some (1, 7) } }
    let s : State := lanes ch0 ended ch0 ch0
    let after : Instr → Option (ChState × List Nat) := fun i => match exec i s with
      | .next t => some ((t.chan 1).st, t.events.map fun e => e.kind.num)
      | _ => none
    after (.stop 4 2 1) = some (.idle, [0, 1]) ∧ after .clockLoss = some (.idle, [0, 1, 15]) ∧
      after (.softReset 4) = some (.idle, []) := by decide

/-- STREAM members: nothing held, one cell, an END cell behind the START cell, and cells that cannot open for want of the
profile; each with a commit requested. -/
theorem meets_StartPrimesItsMembers_streams :
    let ch : Byte → List StreamCell → Channel := fun prof l =>
      { ch0 with cfg := { streamCfg with prof := prof }, intake := l, commitReq := true }
    let lastCell : StreamCell := { midCell with last := true }
    let s := lanes (ch 2 []) (ch 2 [startCell]) (ch 2 [startCell, midCell, lastCell]) (ch 63 [startCell, midCell])
    ReadyActive s ∧ (∀ c, (s.chan c).cfg.mode = .stream ∧ (s.chan c).stream = none ∧ (s.chan c).st = .idle) ∧
      (s.chan 0).intake = [] ∧ (s.chan 1).intake = startCell :: [] ∧
      ((s.chan 2).intake = startCell :: [midCell, lastCell] ∧ [midCell, lastCell] = [midCell] ++ lastCell :: [] ∧
        (∀ u ∈ [midCell], u.start = false ∧ u.last = false) ∧ lastCell.start = false ∧ lastCell.last = true) ∧
      s.profile (s.chan 2).cfg.prof = some unity ∧ s.profile (s.chan 3).cfg.prof = none := by decide

def stopped : State :=
  lanes playing { playing with st := .stopping } { streaming with st := .armed } ch0

theorem meets_StopEndsPlay :
    ReadyActive stopped ∧ ((0#8) = 0 ∨ 16 ≤ (16#8).toNat ∨ 2 ≤ (2#8).toNat) ∧
      (0 < (7#8).toNat ∧ (15#8).toNat < 16 ∧ (1#8).toNat < 2) ∧
      (∀ c : Chan, (15#8).getLsbD c.val = true → endWaits stopped c = false) ∧
      (7#8).getLsbD 3 = false ∧ (stopped.chan 0).st = .running ∧ (stopped.chan 1).st = .stopping ∧
      (stopped.chan 3).cfg.mode = .play ∧
      ((stopped.chan 2).cfg.mode = .stream ∧ (stopped.chan 2).st ≠ .idle ∧ (stopped.chan 2).st ≠ .halted) := by decide

/-- The clauses of a group's members and of words fetched for the NEXT entry: channel 0 plays with both tags in its window,
a record of either tag and one that has RETURNED; channels 1 and 2 stand in one group. -/
theorem meets_StopEndsPlay_more :
    let a : FetchRec := { next := false, addr := 0, first := 0, last := 15, st := .granted, discard := false }
    let b : FetchRec := { a with next := true, st := .returned [(7, false)] }
    let s : State := { lanes
        { playing with queue := [entry3], fetch := { fetchReset with window := words 2 ++ [⟨9, true⟩], outs := [a, b] } }
        { playing with st := .armed, queue := [entry3] } { ch0 with st := .priming } ch0 with
      groups := ⟨some ⟨⟨false, true, true, false⟩, .immediate, false, false⟩, none, none, none⟩ }
    ReadyActive s ∧ (∀ c : Chan, endWaits s c = false) ∧ (s.chan 0).st = .running ∧
      recordsKept true (s.chan 0).fetch.outs = [a] ∧ recordsDue [b] = [b] ∧
      (wordsDue [b] 5).1 = [⟨7, true⟩] ∧ (wordsDue [{ b with st := .returned [(7, true), (8, false)] }] 5).1 =
        [⟨5, true⟩, ⟨8, true⟩] ∧
      (∀ c g k, ∀ x ∈ s.groups.get g, ∀ y ∈ s.groups.get k, x.members.get c = true → y.members.get c = true → g = k) ∧
      (s.chan 1).st = .armed ∧ (s.chan 2).st = .priming := by decide

def queued : State := lanes { playing with queue := [entry3] } { playing with st := .stopping } { ch0 with cfg := streamCfg, intake := [startCell] } playing

theorem meets_FlushAndSkip :
    ReadyActive queued ∧ 4 ≤ (4#8).toNat ∧ (3#8).toNat = (3 : Chan).val ∧ (∀ c, endWaits queued c = false) ∧
      ((queued.chan 0).st ≠ .idle ∧ (queued.chan 0).st ≠ .halted) ∧ (queued.chan 2).st = .idle ∧
      (queued.chan 2).cfg.mode = .stream ∧
      ((queued.chan 3).cfg.mode = .play ∧ (queued.chan 3).st = .running ∧ (queued.chan 3).queue = []) ∧
      (queued.chan 1).st = .stopping ∧
      (let s := lanes { ch0 with queue := [entry3, entry3] } ch0 ch0 ch0
       ReadyActive s ∧ (s.chan 0).cfg.mode = .play ∧ (s.chan 0).st = .idle) ∧
      ((queued.chan 0).st = .running ∧ (queued.chan 0).queue = entry3 :: [] ∧
        queued.profile entry3.prof = some unity) ∧ queued.mask.getLsbD 1 = true := by decide

theorem meets_FlushAndSkip_discards :
    let s := lanes { playing with queue := [lost3, entry3] } { playing with queue := [lost3] }
      { playing with st := .stopping, queue := [entry3, lost3] } playing
    ReadyActive s ∧ (∀ c, endWaits s c = false ∧ (s.chan c).cfg.mode = .play) ∧
      ((s.chan 0).st = .running ∧ (s.chan 0).queue = absentHead s 0 ++ entry3 :: [] ∧ s.profile entry3.prof = some unity) ∧
      ((s.chan 1).st = .running ∧ (s.chan 1).queue = absentHead s 1) ∧ (s.chan 2).st = .stopping ∧
      (s.chan 3).queue = absentHead s 3 := by decide

/-- The fields of CHANNEL_SET as the statement's checks take them. -/
abbrev fieldsOk (mode divider idle : Byte) (lo hi : BitVec 16) (prof incI : Byte) (incF : BitVec 32) : Prop :=
  mode.toNat < 2 ∧ idle.toNat < 2 ∧ divider.toNat ∈ [1, 2, 4, 8, 16] ∧ lo.toInt ≤ hi.toInt ∧
    prof.toNat ≤ 63 ∧ incI.toNat ≤ 15 ∧ ¬(incI = 0 ∧ incF = 0)

theorem meets_ChannelSetAndRead :
    ReadyActive queued ∧ 4 ≤ (4#8).toNat ∧ (3#8).toNat = (3 : Chan).val ∧ (∀ c, endWaits queued c = false) ∧
      ((queued.chan 0).st ≠ .idle ∧ (queued.chan 0).st ≠ .halted) ∧
      ((queued.chan 2).st = .idle ∧ (0#8).toNat ≠ (queued.chan 2).cfg.mode.num ∧ (queued.chan 2).intake ≠ []) ∧
      ((queued.chan 2).st = .idle ∧ (1#8).toNat = (queued.chan 2).cfg.mode.num) ∧
      fieldsOk 1 16 1 5 5 63 15 0 ∧ fieldsOk 0 1 0 0x8000 0x7FFF 0 0 1 ∧ ¬fieldsOk 0 3 0 0 0 0 1 0 ∧
      ¬fieldsOk 0 1 0 6 5 0 1 0 ∧ ¬fieldsOk 0 1 0 5 5 64 1 0 ∧ ¬fieldsOk 0 1 0 5 5 63 16 0 ∧
      ¬fieldsOk 0 1 0 5 5 63 0 0 ∧ ready0.ckc.st = .noClock ∧ queued.ckc.st ≠ .noClock ∧
      (∀ g, ∀ x ∈ starting.groups.get g, x.members.get 0 = false) ∧
      (∀ c, ∀ g k, ∀ x ∈ starting.groups.get g, ∀ y ∈ starting.groups.get k, x.members.get c = true →
        y.members.get c = true → g = k) ∧ ∃ x ∈ starting.groups.get 0, x.members.get 3 = true := by
  and_intros <;> decide

theorem meets_CurveWriteSaturates :
    ReadyActive ready0 ∧ 4 ≤ (4#8).toNat ∧ (3#8).toNat = (3 : Chan).val ∧
      ((0#8) = 0 ∨ 8 < (9#8).toNat ∨ 33 < (26#8).toNat + (8#8).toNat) ∧
      (1 ≤ (8#8).toNat ∧ (8#8).toNat ≤ 8 ∧ (25#8).toNat + (8#8).toNat ≤ 33) ∧
      (ready0.chan 3).pendCurve.length = 33 := by decide

theorem meets_CurveCommitAndRead :
    ReadyActive stopped ∧ 4 ≤ (4#8).toNat ∧ (3#8).toNat = (3 : Chan).val ∧ 2 ≤ (2#8).toNat ∧
      ((stopped.chan 0).st = .running ∧ (stopped.chan 1).st = .stopping) ∧
      ((stopped.chan 3).st ≠ .running ∧ (stopped.chan 3).st ≠ .stopping) ∧
      ((0#8) = 0 ∨ 8 < (9#8).toNat ∨ 33 < (26#8).toNat + (8#8).toNat) ∧
      ((1#8).toNat < 2 ∧ 1 ≤ (8#8).toNat ∧ (8#8).toNat ≤ 8 ∧ (25#8).toNat + (8#8).toNat ≤ 33) := by decide

/-- The check code of a page of zeros is zero (R85). -/
theorem pageGood_zero : pageGood 0 = true := by
  have h : bytesFrom 512 (0 : Page) 0 510 = List.replicate 510 0 ++ [] := by
    have e : ∀ k, byteAt 512 (0 : Page) (0 + k) = 0#8 := by
      intro k
      simp [byteAt]
    unfold bytesFrom
    rw [List.map_congr_left (fun k _ => e k), List.map_const', List.length_range, List.append_nil]
    rfl
  simp only [pageGood, h, crc_zeros]
  simp [crc]

/-- Page 0 as shipped, page 1 of zeros and so good, page 7 DEFECTIVE, pages 2 to 6 BLANK. -/
def pages : State :=
  { ready0 with cal := { calShipped with
      pages := calShipped.pages.set 1 0,
      states := calShipped.states.set 7 .defective } }

theorem meets_CurveLoadCopiesOwnImage :
    ReadyActive pages ∧ 4 ≤ (4#8).toNat ∧ (3#8).toNat = (3 : Chan).val ∧ ((0#8) = 0 ∨ 7 < (8#8).toNat) ∧
      (1 ≤ (1#8).toNat ∧ (7#8).toNat ≤ 7) ∧ pages.pageState (2#8).toNat = .blank ∧
      pages.pageState (7#8).toNat = .defective ∧
      (pages.pageState (1#8).toNat = .programmed ∧ pageGood (pages.page (1#8).toNat) = true) ∧
      (pages.chan 3).pendCurve.length = 33 := by
  refine ⟨by decide, by decide, by decide, by decide, by decide, by decide, by decide, ⟨by decide, ?_⟩, by decide⟩
  exact pageGood_zero

theorem meets_CalReadReturnsBytes :
    let s : State := { pages with cal := { pages.cal with job := some (.program 6 0) } }
    ReadyActive s ∧ (7 < (8#8).toNat ∨ 511 < (512#16).toNat ∨ (0#8) = 0 ∨ 24 < (25#8).toNat ∨
        512 < (511#16).toNat + (2#8).toNat) ∧
      ((7#8).toNat ≤ 7 ∧ (511#16).toNat ≤ 511 ∧ 1 ≤ (1#8).toNat ∧ (24#8).toNat ≤ 24 ∧
        (511#16).toNat + (1#8).toNat ≤ 512 ∧ (488#16).toNat + (24#8).toNat ≤ 512) ∧
      (∃ image, s.cal.job = some (.program (6#8).toNat image)) ∧
      ∀ image, s.cal.job ≠ some (.program (7#8).toNat image) := by
  refine ⟨by decide, by decide, by decide, ⟨0, rfl⟩, ?_⟩
  intro image h
  injection h with h
  injection h with h
  exact absurd h (by decide)

theorem meets_CalibrationProgramsBeginAndEnd :
    let held : State := { pages with slots := { pages.slots with cal := some 5 } }
    let locked : State := { pages with cal := { pages.cal with lock := true } }
    let inProgram : State := { held with cal := { pages.cal with job := some (.program 2 0) } }
    let inLock : State := { held with cal := { pages.cal with job := some .lock } }
    ReadyActive pages ∧ ReadyActive held ∧ ReadyActive locked ∧ ((1#8).toNat < 2 ∨ 7 < (8#8).toNat) ∧
      (2 ≤ (2#8).toNat ∧ (7#8).toNat ≤ 7) ∧ held.slots.cal ≠ none ∧
      (locked.slots.cal = none ∧ locked.cal.lock = true) ∧ (pages.slots.cal = none ∧ pages.cal.lock = false) ∧
      pages.pageState (7#8).toNat ≠ .blank ∧ pages.pageState (2#8).toNat = .blank ∧
      (inProgram.resetLow = false ∧ inProgram.cal.job = some (.program 2 0) ∧ inProgram.slots.cal = some 5) ∧
      (inLock.resetLow = false ∧ inLock.cal.job = some .lock ∧ inLock.slots.cal = some 5 ∧
        inLock.cal.lock = false ∧ inLock.cal.lockMark = false) := by
  intro held locked inProgram inLock
  exact ⟨by decide, by decide, by decide, by decide, by decide, by decide, by decide, by decide, by decide, by decide,
    ⟨rfl, rfl, rfl⟩, rfl, rfl, rfl, rfl, rfl⟩

/-- A window over addresses 64 to 111 with a cell in its buffer. -/
def window0 : LoadWindow := { base := 64, length := 48, next := 64, written := 0, accepting := true, tag := 9 }
def loading : State := { ready0 with ldw := { window := some window0, buffer := [7, 8] } }

/-- The state with a bank at work in row 0. -/
def atWork (b : BankNo) (r : Req) (s : State) : State :=
  s.setBank b { bankReset with ctrl := .opened 0, work := some ⟨r, false, false⟩ }

def retire0 : Retire := { bank := 1, row := 0, spare := 3, pos := 15, words := 0, bad := 0 }

theorem meets_LoadOpenByItsChecks :
    let retiring : State := { ready0 with retire := some retire0 }
    let args : BitVec 32 → BitVec 32 → Prop := fun base length =>
      base.toNat % 16 = 0 ∧ length.toNat % 16 = 0 ∧ 16 ≤ length.toNat ∧ length.toNat ≤ 4194304 ∧
        base.toNat + length.toNat ≤ 4194304
    ReadyActive ready0 ∧
      (ReadyActive { State.reset with startingUp := false, lrx := ready0.lrx } ∧ storeReset.state ≠ .ready) ∧
      (ready0.store.state = .ready ∧ ready0.ldw.window = none ∧ loading.ldw.window ≠ none) ∧
      (∃ r, retiring.retire = some r ∧ (0#32).toNat < rowBase r.bank r.row + 256 ∧
        rowBase r.bank r.row < (0#32).toNat + (257#32).toNat) ∧
      args 0 16 ∧ args 0 4194304 ∧ args 4194288 16 ∧ ¬args 8 16 ∧ ¬args 0 0 ∧ ¬args 4194288 32 ∧
      (∃ p ∈ segs0.segs, (16#32).toNat < p.2.base + p.2.length ∧ p.2.base < (16#32).toNat + (16#32).toNat ∧
        p.2.locked = true) ∧
      (let s : State := { ready0 with segs := [(3, used32)] }
       (∀ p ∈ s.segs, p.2.locked = false) ∧ ∃ p ∈ s.segs, (16#32).toNat < p.2.base + p.2.length ∧ 0 < p.2.use) ∧
      (∀ p ∈ segs0.segs, ¬((32#32).toNat < p.2.base + p.2.length)) := by
  intro retiring args
  refine ⟨by decide, by decide, by decide, ⟨retire0, rfl, by decide, by decide⟩, by decide, by decide, by decide,
    by decide, by decide, by decide, by decide, by decide, by decide⟩

theorem meets_LoadCloseEndsTheWindow :
    ReadyActive loading ∧ ReadyActive ready0 ∧ ready0.ldw.window = none ∧ loading.ldw.window = some window0 ∧
      (∀ b, ∀ k ∈ (loading.bank b).work, k.req.isLoadWrite = false) ∧
      (let s := atWork 0 (.loadWrite 64) loading
       ReadyActive s ∧ ∃ b k, (s.bank b).work = some k ∧ k.req.isLoadWrite = true ∧
         s.ldw.buffer = 7 :: [8] ∧ s.ldw.window = some window0) := by
  refine ⟨by decide, by decide, by decide, by decide, by decide, by decide, 0, _, rfl, rfl, rfl, rfl⟩

theorem meets_StoreReadAsksItsBurst :
    ReadyActive ready0 ∧ ((0#8) = 0 ∨ 12 < (13#8).toNat ∨ 4194304 < (4194304#32).toNat + (1#8).toNat) ∧
      (1 ≤ (1#8).toNat ∧ (12#8).toNat ≤ 12 ∧ (4194303#32).toNat + (1#8).toNat ≤ 4194304) ∧
      ready0.store.state = .ready ∧ storeReset.state ≠ .ready := by decide

/-- Row 1 of bank 0 is served by spare 3 of that bank. -/
def remapped0 : Link := { bank := 0, row := 1, spare := 3, target := none, origin := .user, state := .active }

/-- Bank 0 free in this state, with row 1 remapped. -/
def freeBank (k : Ctrl) : State :=
  (ready0.setStore { ready0.store with links := [remapped0] }).setBank 0 { bankReset with ctrl := k }

/-- The bank of a STORE_READ free in each state, its row that of the burst and another, and at work. -/
theorem meets_StoreReadAsksItsBurst_grant :
    (∀ k ∈ [Ctrl.closed, .opened 0, .opened 4099],
        ReadyActive (freeBank k) ∧ bankOf ((1024#32).toNat / 16 * 16) = 0 ∧ ((freeBank k).bank 0).work = none ∧
          ((freeBank k).bank 0).waiting = [] ∧ ((freeBank k).bank 0).debt = 0 ∧
          (k = .closed ∨ k = .opened 0 ∨ k = .opened 4099) ∧ ∀ c, ((freeBank k).chan c).fetch.outs = []) ∧
      ((atWork 0 (.mgmtRead 0) ready0).bank 0).work ≠ none := by decide

/-- R95, R96: a read of row 1, which spare 3 serves: activated in the spare, begun at once where the spare is open, a close
first where row 1 itself is open. -/
theorem test_store_read_is_granted_in_the_serving_row :
    [Ctrl.closed, .opened 4099, .opened 1].map (fun k =>
      match exec (.storeRead 5 1024 1) (freeBank k) with
        | .next t => some (t.bank 0).ctrl
        | _ => none) = [some (.opening 4099), some (.opened 4099), some .closing] := by decide

theorem meets_StoreSetStoresItsSettings :
    let s := ready0.setStore { ready0.store with weak := [⟨0, 1, 8, true⟩, ⟨0, 2, 7, false⟩] }
    ReadyActive s ∧ 2 ≤ (2#8).toNat ∧ (1#8).toNat < 2 ∧
      (∀ w ∈ s.store.weak, (8#8).toNat ≤ w.count.toNat → w.flagged = true) ∧
      (∃ w ∈ s.store.weak, (7#8).toNat ≤ w.count.toNat ∧ w.flagged = false) ∧ s.mask.getLsbD 7 = true := by decide

theorem meets_StoreInitBegins :
    let held : State := { ready0 with slots := { ready0.slots with storeInit := some 1 } }
    let unlocked : State := { ready0 with segs := [(511, free32)] }
    ReadyActive held ∧ held.slots.storeInit ≠ none ∧ ReadyActive segs0 ∧ segs0.slots.storeInit = none ∧
      (∃ p ∈ segs0.segs, 0 < p.2.use) ∧
      (let s : State := { ready0 with segs := [(4, locked32)] }
       ReadyActive s ∧ (∀ p ∈ s.segs, p.2.use = 0) ∧ ∃ p ∈ s.segs, p.2.locked = true) ∧
      (ReadyActive loading ∧ loading.ldw.window ≠ none) ∧
      (ReadyActive unlocked ∧ (∀ p ∈ unlocked.segs, p.2.use = 0 ∧ p.2.locked = false) ∧ unlocked.retire = none ∧
        unlocked.ldw.window = none) := by decide

def link3 : Link := { bank := 3, row := 4095, spare := 0, target := none, origin := .user, state := .active }

theorem meets_RetireRowBegins :
    let linked : State := ready0.setStore { ready0.store with links := [link3] }
    let full : State := ready0.setStore { ready0.store with links := List.replicate 32 link3 }
    let spent : State :=
      ready0.setStore { ready0.store with spares := Quad.fill (List.replicate 16 .linked) }
    let held : State := { ready0 with slots := { ready0.slots with retire := some 1 } }
    ReadyActive linked ∧ ReadyActive full ∧ ReadyActive spent ∧ ReadyActive held ∧
      (4 ≤ (4#8).toNat ∨ 4096 ≤ (4096#16).toNat) ∧ (3#8).toNat = (3 : BankNo).val ∧ (4095#16).toNat < 4096 ∧
      linked.store.state = .ready ∧ held.slots.retire ≠ none ∧ linked.slots.retire = none ∧
      (∃ w ∈ loading.ldw.window, w.base < rowBase 0 0 + 256 ∧ rowBase 0 0 < w.base + w.length) ∧
      (32 ≤ full.store.links.length ∧ ¬∃ l ∈ full.store.links, l.bank = 0 ∧ l.row = 0) ∧
      (linked.store.links.length < 32 ∧ ∃ l ∈ linked.store.links, l.bank = 3 ∧ l.row = (4095#16).toNat) ∧
      SpareState.free ∉ spent.store.spares.get 3 ∧
      ((linked.store.spares.get 3)[0]? = some .free ∧ ∀ m, m < 0 → (linked.store.spares.get 3)[m]? ≠ some .free) := by
  intro linked full spent held
  and_intros <;> decide

theorem meets_IntegrityRecordsRead :
    ReadyActive ready0 ∧ 15 < (16#8).toNat ∧ (15#8).toNat ≤ 15 ∧ (4 ≤ (4#8).toNat ∨ 31 < (32#8).toNat) ∧
      (3#8).toNat = (3 : BankNo).val ∧ (31#8).toNat ≤ 31 := by decide

/-- A control payload of EVENTS_SET, tag 1, enables 0x00FF, and one of an unknown code. -/
def eventsSetPayload : Payload := 0x40000100FF#256 <<< 216
def unknownPayload : Payload := 0x5300010000#256 <<< 216

/-- R182: the code in payload byte 0, the tag in bytes 1 and 2, the enables in bytes 3 and 4. -/
theorem test_control_payload_is_read :
    payloadControl eventsSetPayload = { tag := 1, op := .eventsSet 0x00FF } := by decide +kernel

theorem meets_ControlCellsCarryTheirOperations :
    eventsSetPayload.extractLsb' (256 - 8 * (0 + 1)) 8 = 0x40 ∧
      (unknownPayload.extractLsb' (256 - 8 * (0 + 1)) 8).toNat ∉ knownCodes ∧
      ∀ n : Fin 256, ((BitVec.ofNat 256 n.val <<< 248).extractLsb' (256 - 8 * (0 + 1)) 8).toNat = n.val := by
  decide +kernel

theorem meets_ControlCellQueuedOrTaken :
    let held : State := { ready0 with mgu := .executing (.loadClose 1), cmdQ := List.replicate 7 ⟨1, .status⟩ }
    let full : State := { held with cmdQ := List.replicate 8 ⟨1, .status⟩ }
    (Listening held ∧ held.mgu ≠ .available ∧ held.cmdQ.length < 8) ∧
      (Listening { ready0 with startingUp := true }) ∧ (Listening full ∧ full.cmdQ.length = 8) ∧ Ready ready0 := by
  decide

/-- Four replies queued: an operation that replies at its take, one that waits, and an unknown code. -/
theorem meets_ControlCellQueuedOrTaken_held :
    let r : Reply := { op := 0x50, tag := 1, status := .ok, data := [] }
    let s : State := { ready0 with ltx := { ready0.ltx with replies := [r, r, r, r] } }
    let reads : Payload := (0x32#256 <<< 248) ||| (1#256 <<< 192)
    Listening s ∧ s.startingUp = false ∧ s.mgu = .available ∧ s.cmdQ = [] ∧ 4 ≤ s.ltx.replies.length ∧
      (runOp (payloadControl eventsSetPayload) (controlTaken s)).reply.isSome = true ∧
      (runOp (payloadControl reads) (controlTaken s)).reply = none ∧
      (unknownPayload.extractLsb' 248 8).toNat ∉ knownCodes := by decide +kernel

theorem meets_CommonRefusals :
    let s : State := { ready0 with part := .standby }
    (Ready s ∧ (0x53#8).toNat ∉ knownCodes) ∧ s.part ≠ .active ∧
      (let code : Byte := eventsSetPayload.extractLsb' 248 8
       code.toNat ∈ knownCodes ∧ code ≠ 0x49 ∧ code ≠ 0x50 ∧ code ≠ 0x51) := by decide +kernel

theorem meets_MaskStatusAndCounters :
    ReadyActive ready0 ∧ Ready { ready0 with part := .exiting } ∧ (7 < (8#8).toNat ∨ 2 ≤ (2#8).toNat) ∧
      ((7#8).toNat ≤ 7 ∧ (1#8).toNat < 2) ∧ (0#8) = 0 ∧ (1#8) = 1 := by decide

/-- A posting of a masked kind, of a pair that is queued behind another and at the last repeat count, and of a new pair; the
first and the last kind code. -/
theorem meets_MaskStatusAndCounters_postings :
    let e : EvEntry := { src := .link, kind := .crcError, count := 1, detail := 1, status := .ok }
    let s : State := { ready0 with mask := 0x7FFF, events := [event0, e] }
    let kinds : List Kind :=
      [.playDone, .queueEmpty, .starved, .clipped, .playReject, .triggerMissed, .halted, .eccThreshold,
       .eccUncorrectable, .refreshOverrun, .linkState, .crcError, .queueOverrun, .strayLoad, .opDone, .clockState]
    (kinds[0]? = some .playDone ∧ s.mask.getLsbD 0 = true ∧
        ∀ x ∈ s.events, ¬(x.src = .channel 3 ∧ x.kind = .playDone)) ∧
      (kinds[15]? = some .clockState ∧ s.mask.getLsbD 15 = false) ∧
      (kinds[11]? = some .crcError ∧ s.mask.getLsbD 11 = true ∧ s.events = [event0] ++ e :: [] ∧
        (e.src = .link ∧ e.kind = .crcError) ∧ ∀ x ∈ [event0], ¬(x.src = .link ∧ x.kind = .crcError)) ∧
      ({ e with count := 65535 } : EvEntry).count = 65535 := by decide

/-- R172: the third CRC_ERROR raises the entry's repeat count and keeps its place and first detail. -/
theorem test_posting_folds :
    let e : EvEntry := { src := .link, kind := .crcError, count := 2, detail := 1, status := .ok }
    (post .link .crcError 9 .busy { ready0 with events := [e, event0] }).events = [{ e with count := 3 }, event0] := by decide

theorem meets_StandbyEntryAndExit :
    let asleep : State := { ready0 with part := .standby, ckc := { st := .locked, lockCount := 4096 } }
    let s : State := asleep.setBank 2 { bankReset with ctrl := .selfRefresh }
    let exiting : State := { ready0 with part := .exiting, slots := { ready0.slots with standbyExit := some 3 } }
    (ReadyActive stopped ∧ ∃ c, (stopped.chan c).st ≠ .idle ∧ (stopped.chan c).st ≠ .halted) ∧
      (ReadyActive loading ∧ (∀ c, (loading.chan c).st = .idle ∨ (loading.chan c).st = .halted) ∧
        loading.ldw.window ≠ none) ∧
      (ReadyActive ready0 ∧ (∀ c, (ready0.chan c).st = .idle ∨ (ready0.chan c).st = .halted) ∧
        ready0.slots = ⟨none, none, none, none⟩ ∧ ready0.ldw.window = none) ∧
      (Ready ready0 ∧ ready0.part = .active ∧ ready0.slots.standbyExit = none) ∧
      (Ready exiting ∧ exiting.slots.standbyExit ≠ none) ∧
      (Ready { ready0 with part := .standby } ∧ ready0.ckc.st ≠ .locked) ∧
      (Ready s ∧ s.part = .standby ∧ s.slots.standbyExit = none ∧ s.ckc.st = .locked ∧
        (s.bank 2).ctrl = .selfRefresh ∧ (s.bank 2).work = none ∧ (s.bank 2).waiting = [] ∧
        ∀ c, (s.chan c).fetch.outs = []) := by
  intro asleep s exiting
  and_intros <;> decide

theorem meets_SoftResetClearsTheLanes :
    let held : State := { ready0 with slots := { ready0.slots with cal := some 3 } }
    let granted := atWork 0 (.loadWrite 64) loading
    (ReadyActive held ∧ held.slots.cal ≠ none) ∧
      (ReadyActive stopped ∧ stopped.slots.storeInit = none ∧ stopped.slots.retire = none ∧
        stopped.slots.cal = none ∧ ∀ c, endWaits stopped c = false) ∧ stopped.ldw.window = none ∧
      ((∀ b, ∀ k ∈ (loading.bank b).work, k.req.isLoadWrite = false) ∧ loading.ldw.window ≠ none) ∧
      ((∃ b, ∃ k ∈ (granted.bank b).work, k.req.isLoadWrite = true) ∧ granted.ldw.window = some window0) := by
  intro held granted
  and_intros <;> decide

/-- The part with the delineation state and the runs given. -/
def onLine (d : Delin) (good bad : Nat) : State :=
  { ready0 with lrx := { lrxReset with deln := d, goodRun := good, badRun := bad } }

theorem meets_DelineationByGoodAndBadCells :
    cellGood goodCell = true ∧ cellGood 0 = false ∧ (onLine .hunt 0 0).resetLow = false ∧
      (onLine .hunt 0 0).lrx.deln = .hunt ∧ (onLine .presync 3 0).lrx.deln = .presync ∧
      (onLine .presync 2 0).lrx.goodRun + 1 < 4 ∧ ¬(onLine .presync 3 0).lrx.goodRun + 1 < 4 ∧
      (onLine .sync 0 1).lrx.deln = .sync ∧ (onLine .sync 0 1).lrx.badRun + 1 < 3 ∧
      ¬(onLine .sync 0 2).lrx.badRun + 1 < 3 :=
  ⟨goodCell_good, cell_zero_bad, rfl, rfl, rfl, by decide, by decide, rfl, by decide, by decide⟩

theorem meets_CellsDispatchedByKind : cellGood goodCell = true ∧ Listening ready0 := ⟨goodCell_good, rfl, rfl⟩

theorem meets_SilenceFillAndUndefinedKinds :
    (onLine .hunt 0 0).lrx.deln = .hunt ∧ (onLine .presync 1 0).lrx.deln ≠ .hunt ∧ Listening ready0 ∧
      (6#4).toNat ∉ [1, 2, 3, 4, 5, 15] ∧ (14#4).toNat ∉ [1, 2, 3, 4, 5, 15] ∧
      (0#4).toNat ∉ [1, 2, 3, 4, 5, 15] := by decide

/-- A play cell's payload: segment, profile, flags with the integer increment, fraction, repeat count, marker width and
start index (12.1). -/
def playPayload (seg prof flags incF passes width start : Nat) : Payload :=
  BitVec.ofNat 256
    (((((((seg * 256 + prof) * 256 + flags) * 2 ^ 32 + incF) * 65536 + passes) * 256 + width) * 256) * 2 ^ 32 + start) <<< 128

/-- 12.1: the entry of segment 3, profile 2, NOTIFY and MARK, increment 1, one pass, marker width 4. -/
theorem test_play_payload_is_read : payloadEntry (playPayload 3 2 0x61 0 1 4 0) = entry3 := by decide +kernel

/-- The rejection code by the order of the checks of R20, as the statement writes it. -/
def firstFailing (c : Chan) (p : Payload) (s : State) : Option Code :=
  let seg : BitVec 16 := p.extractLsb' 240 16
  let prof : Byte := p.extractLsb' 232 8
  let inc : Nat := (p.extractLsb' 224 4).toNat * 2 ^ 32 + (p.extractLsb' 192 32).toNat
  let passes : Nat := (p.extractLsb' 176 16).toNat
  let start : Option Nat := if p.getLsbD 228 then some (p.extractLsb' 128 32).toNat else none
  let inLoad : Desc → Bool := fun d => match s.ldw.window with
    | none => false
    | some w => decide (w.base < d.base + d.length ∧ d.base < w.base + w.length)
  if (s.chan c).cfg.mode = .stream then some .wrongMode
  else if 511 < seg.toNat ∨ 63 < prof.toNat then some .badIndex
  else match s.seg seg.toNat with
    | none => some .notPresent
    | some d =>
      if s.store.state ≠ .ready then some .notReady
      else if inLoad d then some .inLoad
      else if start.any fun v => decide (d.length ≤ v) then some .badOffset
      else if passes ≠ 1 ∧ d.length - d.loop.getD 0 < 16 then some .badLoop
      else if inc = 0 then some .badRate
      else if s.profile prof = none then some .profileAbsent
      else none

/-- Segments 3 (32 words, loop at 16) and 4 (loop at 17), profile 2; channel 2 streams, channel 3's queue is full. -/
def plays : State :=
  { lanes ch0 { ch0 with st := .priming } { ch0 with cfg := streamCfg } { ch0 with queue := List.replicate 16 entry3 } with
    segs := [(3, { free32 with loop := some 16, use := 16 }), (4, { free32 with loop := some 17 }), (511, free32)] }

theorem meets_PlayCellDroppedOrRejected :
    Listening plays ∧ (∀ c, endWaits plays c = false) ∧ 16 ≤ (plays.chan 3).queue.length ∧
      (∀ c : Chan, c ≠ 3 → (plays.chan c).queue.length < 16) ∧
      firstFailing 2 (playPayload 3 2 1 0 1 0 0) plays = some .wrongMode ∧
      firstFailing 0 (playPayload 512 2 1 0 1 0 0) plays = some .badIndex ∧
      firstFailing 0 (playPayload 511 64 1 0 1 0 0) plays = some .badIndex ∧
      firstFailing 0 (playPayload 510 2 1 0 1 0 0) plays = some .notPresent ∧
      firstFailing 0 (playPayload 3 2 1 0 1 0 0) { plays with store := storeReset } = some .notReady ∧
      firstFailing 0 (playPayload 3 2 1 0 1 0 0)
        { plays with ldw := { window := some { window0 with base := 16 }, buffer := [] } } = some .inLoad ∧
      firstFailing 0 (playPayload 3 2 0x11 0 1 0 32) plays = some .badOffset ∧
      firstFailing 0 (playPayload 4 2 1 0 0 0 0) plays = some .badLoop ∧
      firstFailing 0 (playPayload 3 2 0 0 1 0 0) plays = some .badRate ∧
      firstFailing 0 (playPayload 3 63 1 0 1 0 0) plays = some .profileAbsent := by
  and_intros <;> decide +kernel

/-- A group of channel 1 alone. -/
def grouped1 : Quad (Option Group) := ⟨none, some ⟨⟨false, true, false, false⟩, .immediate, false, false⟩, none, none⟩

/-- Membership stated over the groups that there are. -/
theorem inOneGroup_of {s : State} {c : Chan}
    (h : ∀ g k, ∀ x ∈ s.groups.get g, ∀ y ∈ s.groups.get k, x.members.get c = true → y.members.get c = true → g = k) :
    InOneGroup s c :=
  fun g k x y hg hk => h g k x hg y hk

/-- 6.5, step 1: behind A, fully fetched with 40 words held, the cursor moves to B at its start index 10, and the burst B[0–15]
is asked for, which keeps 10 to 15; the free space is too small for a second. -/
theorem test_next_entry_is_prefetched :
    let a : Desc := { base := 2048, length := 1000, loop := some 200, locked := false, use := 1 }
    let s : State := { lanes { playing with fetch := { fetchReset with window := words 40 } } ch0 ch0 ch0 with
      segs := [(3, a), (8, { a with base := 8192, length := 500, loop := none, use := 0 })] }
    (match exec (.playCell 0 (playPayload 8 2 0x91 0 1 0 10)) s with
      | .next t => some ((t.chan 0).fetch.outs.map askedBurst, (t.chan 0).fetch.cursor)
      | _ => none) = some ([(true, 10, 15, 8192)], some ⟨true, 16, 1⟩) := by decide +kernel

theorem meets_PlayCellAccepted :
    let p := playPayload 3 2 0x11 0 2 0 31
    firstFailing 0 p plays = none ∧ firstFailing 1 p plays = none ∧ Listening plays ∧
      (plays.chan 0).queue.length < 16 ∧ plays.seg 3 = some { free32 with loop := some 16, use := 16 } ∧ 2 ≤ free32.length ∧
      plays.ldw.window = none ∧ (31#32).toNat < 32 ∧ 16 ≤ 32 - 16 ∧ plays.profile 2 = some unity ∧
      (plays.chan 0).st ≠ .priming ∧
      ((plays.chan 1).st = .priming ∧ (plays.chan 1).ctx = none ∧ (plays.chan 1).queue = []) ∧
      (plays.chan 1).fetch = fetchEmptied (plays.chan 1).fetch ∧
      cursorBehind { free32 with loop := some 16 } ⟨false, 31, 2⟩ = some ⟨false, 16, 1⟩ ∧
      cursorBehind { free32 with loop := some 16 } ⟨false, 31, 1⟩ = none ∧
      (let primes : Nat → Channel := fun n =>
         { playing with st := .priming, fetch := { fetchReset with window := words n } }
       let s := { plays with chans := ⟨primes 31, primes 32, playing, ch0⟩, groups := grouped1 }
       Listening s ∧ (∀ c, endWaits s c = false) ∧ InOneGroup s 1 ∧
         (∀ c : Chan, c ≠ 3 → (s.chan c).ctx = some ctx3 ∧ (s.chan c).queue.length < 16) ∧
         ((s.chan 0).st = .priming ∧ (s.chan 1).st = .priming ∧ (s.chan 2).st = .running) ∧
         (s.chan 2).fetch.cursor = none ∧ (s.segOf 3).length - ctx3.entry.startIdx = 32) := by
  intro p
  refine ⟨?_, ?_, ?_, ?_, ?_, ?_, ?_, ?_, ?_, ?_, ?_, ?_, ?_, ?_, ?_, ?_, ?_, inOneGroup_of ?_, ?_⟩ <;> decide +kernel

/-- Channel 0 plays, 1 streams, 2 is idle in STREAM mode, 3 is PRIMING in STREAM mode. -/
def streams : State :=
  lanes playing streaming { ch0 with cfg := streamCfg } { ch0 with cfg := streamCfg, st := .priming }

/-- `streams` with channel 3's stream open and channel 3 in a group of its own. -/
def opened3 : State :=
  { streams.setChan 3 { ch0 with cfg := streamCfg, st := .priming, stream := some stream0, intake := [startCell] } with
    groups := ⟨none, some ⟨⟨false, false, false, true⟩, .immediate, false, false⟩, none, none⟩ }

/-- The further clauses: a second cell at a PRIMING channel, its drop for want of a profile, and the stream that a START
cell ends. -/
theorem meets_StreamCellJoinsOrDrops_more :
    let drained : ChState → State := fun st => streams.setChan 1 { streaming with st := st, intake := [] }
    let bare := { streams with profs := [] }
    (Listening opened3 ∧ (opened3.chan 3).st = .priming ∧ (opened3.chan 3).stream = some stream0 ∧
        InOneGroup opened3 3 ∧ (∀ n ∈ stream0.endPos.or (some (16 * 1)), stream0.i < n) ∧
        (opened3.chan 3).intake ≠ [] ∧ (opened3.chan 3).intake.length < 8) ∧
      ((bare.chan 3).cfg.mode = .stream ∧ (bare.chan 3).stream = none ∧ (bare.chan 3).intake = [] ∧
        (bare.chan 3).st = .priming ∧ bare.profile (bare.chan 3).cfg.prof = none) ∧
      (((drained .running).chan 1).intake = [] ∧ ((drained .running).chan 1).stream = some stream0 ∧
        stream0.endPos = none ∧ ((drained .running).chan 1).st = .running ∧
        (drained .running).profile ((drained .running).chan 1).cfg.prof = some unity ∧
        ((drained .stopping).chan 1).st = .stopping) := by
  intro drained bare
  refine ⟨⟨by decide, by decide, by decide, inOneGroup_of (by decide), by decide, by decide, by decide⟩, by decide, by decide⟩

/-- R26: a stream cell at a PLAY channel whose entry has ended meets it completed: PLAY_DONE and QUEUE_EMPTY come before
PLAY_REJECT with code WRONG_MODE, 20. -/
theorem test_stream_cell_meets_the_channel_completed :
    let s : State := lanes { playing with ctx := some { ctx3 with done := some (1, 7) } } ch0 ch0 ch0
    (match exec (.streamCell 0 true false 5) s with
      | .next t => some ((t.chan 0).st, t.events.map fun e => (e.kind.num, e.detail))
      | _ => none) = some (.idle, [(0, 3), (1, 0), (4, 20#8 ++ 0#24)]) := by decide

/-- Channels with an ended entry, and without, for the clauses of both cells. -/
theorem meets_cells_at_an_ended_entry :
    let s : State := lanes { playing with ctx := some { ctx3 with done := some (1, 7) } } ch0 ch0 ch0
    Listening s ∧ endWaits s 0 = true ∧ (∃ u, exec (.entryCompletion 0) s = .next u) ∧
      (∀ c, endWaits streams c = false) ∧ (∀ c, endWaits opened3 c = false) := by
  intro s
  exact ⟨by decide, by decide, ⟨_, rfl⟩, by decide, by decide⟩

theorem meets_StreamCellJoinsOrDrops :
    let full := streams.setChan 1 { streaming with intake := List.replicate 8 midCell }
    let ended := streams.setChan 1 { streaming with stream := some { stream0 with endPos := some 32 } }
    let waiting := streams.setChan 2 { ch0 with cfg := streamCfg, intake := [startCell] }
    (Listening full ∧ 8 ≤ (full.chan 1).intake.length) ∧
      ((streams.chan 0).intake.length < 8 ∧ (streams.chan 0).cfg.mode = .play) ∧
      ((streams.chan 2).cfg.mode = .stream ∧ (streams.chan 2).stream = none ∧ (streams.chan 2).intake = [] ∧
        (streams.chan 2).st ≠ .priming) ∧
      ((waiting.chan 2).stream = none ∧ (∃ x rest, (waiting.chan 2).intake = x :: rest ∧ x.start = true)) ∧
      ((streams.chan 1).stream = some stream0 ∧ (streams.chan 1).st ≠ .priming ∧
        (∀ n ∈ stream0.endPos.or (some (16 * 2)), stream0.i < n)) ∧
      ((ended.chan 1).stream = some { stream0 with endPos := some 32 } ∧
        ∀ n ∈ (some 32 : Option Nat), stream0.i < n) ∧
      ((streams.chan 3).cfg.mode = .stream ∧ (streams.chan 3).intake = [] ∧ (streams.chan 3).stream = none ∧
        (streams.chan 3).st = .priming ∧ streams.profile (streams.chan 3).cfg.prof = some unity) := by
  intro full ended waiting
  refine ⟨by decide, by decide, by decide, ⟨by decide, startCell, [], rfl, rfl⟩, by decide, by decide, by decide⟩

theorem meets_LoadCellBufferedOrStray :
    let s : List Payload → State := fun l => { ready0 with ldw := { window := some window0, buffer := l } }
    let wide : State := { ready0 with ldw := { window := some { window0 with length := 80 }, buffer := [1, 2, 3, 4] } }
    (Listening ready0 ∧ ready0.ldw.window = none) ∧
      ({ window0 with accepting := false } : LoadWindow).accepting = false ∧ window0.accepting = true ∧
      (window0.length ≤ window0.written + 16 * (s [1, 2, 3]).ldw.buffer.length) ∧
      (window0.written + 16 * (s [1, 2]).ldw.buffer.length < window0.length ∧ (s [1, 2]).ldw.buffer.length < 4) ∧
      (0 + 16 * wide.ldw.buffer.length < 80 ∧ 4 ≤ wide.ldw.buffer.length) ∧
      loadBusy (s []) = false ∧ loadBusy (atWork 0 (.closeRead 48) (s [1])) = true := by decide

theorem meets_UpstreamCellCarriesItsChoice :
    let sending : State := { ready0 with ltx := { ready0.ltx with replies := [reply0], rot := 9 } }
    let holding : State :=
      { ready0 with ltx := { ready0.ltx with replies := List.replicate 4 reply0 }, mgu := .replyHeld reply0 }
    let told : State := { ready0 with events := [event0] }
    (sending.resetLow = false ∧ sending.ltx.rot ≤ 9 ∧ sending.ltx.replies = reply0 :: [] ∧
        ∀ h, sending.mgu ≠ .replyHeld h) ∧
      (holding.ltx.replies = reply0 :: List.replicate 3 reply0 ∧ holding.mgu = .replyHeld reply0 ∧
        (List.replicate 3 reply0).length < 4 ∧ holding.cmdQ = []) ∧
      (let cell : CtlCell := { tag := 5, op := .status }
       ({ holding with cmdQ := [cell, cell] } : State).cmdQ = cell :: [cell] ∧ holding.startingUp = false) ∧
      (told.ltx.replies = [] ∧ told.events = event0 :: [] ∧ told.startingUp = false) ∧
      (ready0.ltx.replies = [] ∧ ready0.events = []) ∧ ({ told with startingUp := true } : State).startingUp = true := by
  intro sending holding told
  refine ⟨⟨rfl, by decide, rfl, ?_⟩, by decide, ⟨rfl, rfl⟩, by decide, by decide, rfl⟩
  intro h e
  cases e

theorem meets_TicksWithoutSamples :
    let empty : State := lanes { playing with fetch := fetchReset } { playing with fetch := { fetchReset with window := words 1 } }
      { streaming with intake := [] } { streaming with stream := some { stream0 with i := 15 }, intake := [startCell] }
    (ready0.ckc.st ≠ .locked ∧ endWaits ready0 0 = false) ∧
      (starting.ckc.st = .locked ∧ (starting.chan 1).st = .halted ∧ (starting.chan 2).cfg.idle = .holdLast) ∧
      (empty.resetLow = false ∧ empty.ckc.st = .locked ∧ (∀ c, (empty.chan c).st = .running)) ∧
      ((empty.chan 0).ctx = some ctx3 ∧ ctx3.done = none ∧ windowWord (empty.chan 0).fetch 0 = none) ∧
      ((empty.chan 1).ctx = some ctx3 ∧ windowWord (empty.chan 1).fetch 1 = none ∧
        ctx3.i + 1 < (empty.segOf ctx3.entry.seg).length) ∧
      ((empty.chan 2).ctx = none ∧ (empty.chan 2).stream = some stream0 ∧ (empty.chan 2).intake = []) ∧
      ((empty.chan 3).stream = some { stream0 with i := 15 } ∧ (empty.chan 3).intake = [startCell] ∧ 16 ≤ 15 + 1) := by
  decide

theorem meets_PlayingTickComputesItsCode :
    let at30 : Ctx := { ctx3 with i := 30 }
    let at31 : Ctx := { ctx3 with i := 31 }
    let loops : Ctx := { ctx3 with i := 31, passes := 0 }
    let s : State := lanes { playing with ctx := some at30 }
      { playing with ctx := some at31, fetch := { fetchReset with window := words 1 } }
      { playing with ctx := some loops } playing
    s.resetLow = false ∧ s.ckc.st = .locked ∧ (s.chan 0).st = .running ∧ (s.chan 0).ctx = some at30 ∧
      (s.chan 1).ctx = some at31 ∧ (s.chan 2).ctx = some loops ∧
      (s.chan 0).cfg.lo.toInt ≤ (s.chan 0).cfg.hi.toInt ∧ windowWord (s.chan 0).fetch 0 = some 0 ∧
      windowWord (s.chan 0).fetch 1 = some 1 ∧ windowWord (s.chan 1).fetch 0 = some 0 ∧
      (s.segOf 3).length = 32 ∧ 30 + 1 < 32 ∧ 32 ≤ 31 + 1 ∧ at31.passes = 1 ∧ loops.passes ≠ 1 ∧
      (s.chan 0).clippedFlag = false ∧ s.mask.getLsbD 3 = true := by decide

theorem meets_StreamTickTakesItsSamples :
    let at15 : Stream := { stream0 with i := 15 }
    let last : Stream := { stream0 with i := 15, endPos := some 16 }
    let s : State := lanes streaming { streaming with stream := some at15 }
      { streaming with stream := some last, intake := [startCell] } ch0
    s.resetLow = false ∧ s.ckc.st = .locked ∧ (∀ c : Chan, c ≠ 3 → (s.chan c).st = .running ∧ (s.chan c).ctx = none) ∧
      ((s.chan 0).stream = some stream0 ∧ stream0.i + 1 < 16 ∧ stream0.endPos = none) ∧
      ((s.chan 1).stream = some at15 ∧ (s.chan 1).intake = startCell :: midCell :: [] ∧ 16 ≤ at15.i + 1) ∧
      ((s.chan 2).stream = some last ∧ (s.chan 2).intake = startCell :: [] ∧ (∃ e ∈ last.endPos, e ≤ last.i + 1) ∧
        (s.chan 2).intake.length ≤ 16 / 16) := by decide

/-- The end of a stream with further cells held: the next stream with its end position, cells of no run, STOPPING. -/
theorem meets_StreamTickTakesItsSamples_ends :
    let ended : ChState → List StreamCell → Channel := fun st l =>
      { streaming with st := st, stream := some { stream0 with i := 15, endPos := some 16 }, intake := startCell :: l }
    let lastCell : StreamCell := { midCell with last := true }
    let s : State := lanes (ended .running [startCell, midCell, lastCell]) (ended .running [midCell])
      (ended .stopping [startCell]) (ended .running [{ startCell with last := true }])
    s.resetLow = false ∧ s.ckc.st = .locked ∧ 16 ≤ 15 + stream0.incI.toNat ∧ s.profile 2 = some unity ∧
      (∀ c, (s.chan c).stream = some { stream0 with i := 15, endPos := some 16 }) ∧
      ((s.chan 0).intake.drop (16 / 16) = startCell :: [midCell, lastCell] ∧ startCell.start = true ∧
        startCell.last = false ∧ [midCell, lastCell] = [midCell] ++ lastCell :: [] ∧
        (∀ u ∈ [midCell], u.start = false ∧ u.last = false) ∧ lastCell.start = false ∧ lastCell.last = true) ∧
      (∀ z ∈ (s.chan 1).intake.drop (16 / 16), z.start = false) ∧ (s.chan 2).st = .stopping ∧
      ∃ h2 ∈ (s.chan 3).intake.drop (16 / 16), h2.last = true := by decide

/-- Cells of no run in front of the next START cell, a next stream without its profile, and both in STOPPING. -/
theorem meets_StreamTickTakesItsSamples_drops :
    let ended : ChState → Byte → List StreamCell → Channel := fun st prof l =>
      { streaming with cfg := { streamCfg with prof := prof }, st := st, intake := startCell :: l,
                       stream := some { stream0 with i := 15, endPos := some 16 } }
    let s : State := lanes (ended .running 2 [midCell, startCell]) (ended .running 63 [startCell, midCell, startCell])
      (ended .stopping 2 [midCell, startCell]) ch0
    let left : Chan → List StreamCell := fun c => (s.chan c).intake.drop (16 / 16)
    let lost : Chan → List StreamCell := fun c =>
      cellsLost (decide ((s.chan c).st = .running)) (s.profile (s.chan c).cfg.prof) (left c)
    (left 0 = lost 0 ++ startCell :: [] ∧ lost 0 = [midCell] ∧ s.profile (s.chan 0).cfg.prof = some unity) ∧
      (lost 1 = left 1 ∧ left 1 = [startCell, midCell, startCell]) ∧ (lost 2 = [midCell] ∧ (s.chan 2).st = .stopping) := by
  decide

/-- R69: without the profile the START cell is dropped PROFILE_ABSENT and the cell behind it NO_STREAM, one PLAY_REJECT of
count 2 with the first code, 24; the channel goes IDLE with QUEUE_EMPTY. -/
theorem test_next_stream_without_its_profile :
    let s : State := lanes { streaming with
      cfg := { streamCfg with prof := 63 }, stream := some { stream0 with i := 15, endPos := some 16 },
      intake := [startCell, startCell, midCell] } ch0 ch0 ch0
    (match exec (.outputTick 0) s with
      | .next t => some ((t.chan 0).st, t.events.map fun e => (e.kind.num, e.count, e.detail))
      | _ => none) = some (.idle, [(4, 2, 24#8 ++ 0#24), (1, 1, 0)]) := by decide

theorem meets_EntryCompletionMovesOn :
    let ended : Ctx := { ctx3 with done := some (1, 7) }
    let s : State := lanes { playing with ctx := some ended } { playing with ctx := some ended, queue := [entry3] }
      { playing with ctx := some ended, st := .stopping } ch0
    s.resetLow = false ∧ endWaits s 3 = false ∧ (∀ c : Chan, c ≠ 3 → (s.chan c).ctx = some ended) ∧
      ended.done = some (1, 7) ∧ ended.entry.notify = true ∧ s.mask.getLsbD 0 = true ∧ (s.chan 0).queue = [] ∧
      (s.chan 2).st = .stopping ∧
      ((s.chan 1).st = .running ∧ (s.chan 1).queue = entry3 :: [] ∧ s.profile entry3.prof = some unity) := by decide

/-- The clauses of discards and of STOPPING: an entry behind a lost one, lost ones alone, a queue to flush. -/
theorem meets_EntryCompletionMovesOn_discards :
    let ended : Ctx := { ctx3 with done := some (1, 7) }
    let s : State := lanes { playing with ctx := some ended, queue := [lost3, entry3] }
      { playing with ctx := some ended, queue := [lost3] }
      { playing with ctx := some ended, st := .stopping, queue := [entry3, lost3] } ch0
    ((s.chan 0).ctx = some ended ∧ (s.chan 0).st = .running ∧ (s.chan 0).queue = absentHead s 0 ++ entry3 :: [] ∧
        s.profile entry3.prof = some unity) ∧
      ((s.chan 1).st ≠ .stopping ∧ (s.chan 1).queue = absentHead s 1) ∧
      ((s.chan 2).st = .stopping ∧ (s.chan 2).cfg.mode = .play) := by decide

/-- The window at an activation: NEXT words held, with room for a burst and without it; nothing held for the next entry; and a
NEXT record and cursor only. -/
theorem meets_EntryCompletionMovesOn_window :
    let ended : Ctx := { ctx3 with done := some (2, 7) }
    let spliced : Entry := { entry3 with splice := true }
    let r : FetchRec := { next := true, addr := 256, first := 0, last := 15, st := .waiting, discard := false }
    let k : Cursor := { next := true, idx := 16, passes := 1 }
    let ch : List FetchWord → List FetchRec → Option Cursor → Channel := fun w o k =>
      { playing with ctx := some ended, queue := [spliced], commitReq := true,
                     fetch := { fetchReset with window := w, outs := o, cursor := k } }
    let next : Nat → List FetchWord := fun n => (words n).map fun w => { w with next := true }
    let s : State := lanes (ch (words 2 ++ next 22) [r] (some k)) (ch (words 2 ++ next 33) [r] (some k)) (ch (words 2) [] none)
      (ch [] [r] (some k))
    let kept : Chan → Fetch := fun c => (materialGivenUp false (s.chan c)).fetch
    s.resetLow = false ∧ (∀ c, (s.chan c).ctx = some ended ∧ (s.chan c).st = .running ∧ absentHead s c = []) ∧
      s.profile spliced.prof = some unity ∧
      ((kept 0).window = next 22 ∧ (kept 0).outs = [r] ∧ (kept 0).cursor = some k ∧ 16 * 2 + 20 ≤ 64) ∧
      ((kept 1).window = next 33 ∧ ¬(16 * 2 + 33 ≤ 64)) ∧
      ((kept 2).window = [] ∧ (kept 2).outs = [] ∧ (kept 2).cursor = none) ∧ ((kept 3).window = [] ∧ (kept 3).outs = [r]) := by
  decide

/-- 6.5, step 9: the ended entry's two words leave, and of the 22 words of the next one the 2 before its spliced start; a
requested commit is made. -/
theorem test_spliced_start_drops_the_words_before_it :
    let ended : Ctx := { ctx3 with done := some (2, 7) }
    let next : List FetchWord := (words 22).map fun w => { w with next := true }
    let s : State := lanes { playing with
      ctx := some ended, queue := [{ entry3 with splice := true }], commitReq := true, pendCurve := [4],
      fetch := { fetchReset with window := words 2 ++ next } } ch0 ch0 ch0
    (match exec (.entryCompletion 0) s with
      | .next t => some ((t.chan 0).fetch.window, (t.chan 0).ctx.map fun x => (x.i, x.f), (t.chan 0).active)
      | _ => none) = some ((words 22).drop 2, some (2, 7), [4]) := by decide

/-- Group 0 complete and TRIGGER, group 1 incomplete and TRIGGER, group 2 IMMEDIATE and start-pending. -/
def grouped : State :=
  let s := lanes { playing with st := .armed } { ch0 with st := .priming } { playing with st := .armed } ch0
  { s with groups := ⟨some ⟨⟨true, false, false, false⟩, .trigger, true, false⟩,
    some ⟨⟨false, true, false, false⟩, .trigger, false, false⟩,
    some ⟨⟨false, false, true, false⟩, .immediate, true, true⟩, none⟩ }

theorem meets_TriggersReleaseOrMiss :
    grouped.resetLow = false ∧ grouped.lrx.deln = .sync ∧
      (∀ c g k, ∀ x ∈ grouped.groups.get g, ∀ y ∈ grouped.groups.get k, x.members.get c = true →
        y.members.get c = true → g = k) ∧
      (∃ x ∈ grouped.groups.get 1, x.mode = .trigger ∧ x.pending = false ∧ x.complete = false ∧
        x.members.get 1 = true) ∧ grouped.mask.getLsbD 5 = true ∧ grouped.events = [] ∧
      ∀ g, ready0.groups.get g = none := by decide

theorem meets_StartTickStartsPendingGroups :
    ready0.ckc.st ≠ .locked ∧ grouped.ckc.st = .locked ∧
      (∀ c g k, ∀ x ∈ grouped.groups.get g, ∀ y ∈ grouped.groups.get k, x.members.get c = true →
        y.members.get c = true → g = k) ∧
      (∃ x ∈ grouped.groups.get 2, x.pending = true ∧ x.members.get 2 = true ∧ x.members.get 0 = false) ∧
      (grouped.chan 2).st = .armed ∧ (grouped.chan 2).ctx = some ctx3 ∧ ctx3.done = none ∧
      windowWord (grouped.chan 2).fetch 0 = some 0 ∧ windowWord (grouped.chan 2).fetch 1 = some 1 ∧
      ctx3.i + 1 < (grouped.segOf ctx3.entry.seg).length := by decide

/-- The clauses of a period: a count that rises, a count that expires, a streaming member, no group pending. -/
theorem meets_StartTickStartsPendingGroups_period :
    let s : State := lanes { playing with divCount := 3, divNow := 4 } { ch0 with st := .halted, divCount := 2, divNow := 4 }
      { streaming with st := .armed } { ch0 with st := .priming, divCount := 3, divNow := 4 }
    let t : State := { s with groups := ⟨some ⟨⟨false, false, true, false⟩, .immediate, true, true⟩, none, none, none⟩ }
    (∀ c, InOneGroup t c) ∧ t.resetLow = false ∧ t.ckc.st = .locked ∧ t.pending = [] ∧
      (∃ x ∈ t.groups.get 0, x.pending = true ∧ x.members.get 2 = true ∧ x.members.get 0 = false) ∧
      (∀ c, endWaits t c = false) ∧ ((t.chan 0).divNow ≤ (t.chan 0).divCount + 1 ∧ (t.chan 0).st = .running) ∧
      (t.chan 1).divCount + 1 < (t.chan 1).divNow ∧ (t.chan 3).divNow ≤ (t.chan 3).divCount + 1 ∧
      ((t.chan 2).st = .armed ∧ (t.chan 2).ctx = none ∧ (t.chan 2).stream = some stream0 ∧
        (t.chan 2).intake = startCell :: [midCell] ∧ stream0.i + 1 < 16 ∧
        stream0.i + stream0.incI.toNat + (stream0.f.toNat + stream0.incF.toNat) / 2 ^ 32 < 16 ∧ stream0.endPos = none) ∧
      ∀ g, ∀ x ∈ s.groups.get g, x.pending = false := by
  intro s t
  exact ⟨fun c => inOneGroup_of (by revert c; decide), by decide, by decide, by decide, by decide, by decide, by decide, by decide,
    by decide, by decide, by decide⟩

theorem meets_ClockGainsItsStates :
    let locking : State := { ready0 with ckc := { st := .locking, lockCount := 4095 } }
    let exiting : State := { locking with part := .exiting, slots := { locking.slots with standbyExit := some 3 } }
    let asleep := exiting.setBank 0 { bankReset with ctrl := .selfRefresh }
    ready0.resetLow = false ∧ ready0.ckc.st = .noClock ∧ locking.ckc.st ≠ .noClock ∧ ready0.ckc.st ≠ .locking ∧
      (locking.ckc.st = .locking ∧ locking.part ≠ .exiting) ∧
      (asleep.part = .exiting ∧ asleep.slots.standbyExit = some 3 ∧ (asleep.bank 0).ctrl = .selfRefresh) ∧
      (locking.pending = [] ∧ 4096 ≤ locking.ckc.lockCount + 1 ∧
        ({ st := .locking, lockCount := 4094 } : Ckc).lockCount + 1 < 4096) := by decide

theorem meets_ClockLossHalts :
    ready0.ckc.st = .noClock ∧ stopped.ckc.st ≠ .noClock ∧ (∀ c, endWaits stopped c = false) ∧
      stopped.mask.getLsbD 15 = true ∧ (stopped.chan 3).st = .idle ∧
      ((stopped.chan 0).st ≠ .idle ∧ (stopped.chan 0).st ≠ .halted ∧ (stopped.chan 0).intake = [] ∧
        stopped.mask.getLsbD 6 = true) ∧
      (let s := stopped.setChan 2 { streaming with intake := [midCell, midCell, startCell] }
       s.ckc.st ≠ .noClock ∧ (∀ c, endWaits s c = false) ∧ (s.chan 2).st = .running ∧
         (s.chan 2).intake.takeWhile (fun z => !z.start) = [midCell, midCell] ∧ s.mask.getLsbD 4 = true ∧ s.events = []) ∧
      (∀ c g k, ∀ x ∈ grouped.groups.get g, ∀ y ∈ grouped.groups.get k, x.members.get c = true →
        y.members.get c = true → g = k) ∧ (∃ x ∈ grouped.groups.get 0, x.members.get 0 = true) := by decide

/-- Four stored groups of the burst position at column 0 of row 0 of bank 0, with these wrong bits in group 1. -/
def stored (wrong : BitVec 72) : List (Nat × Grp) :=
  [(groupKey 0 0 0, ⟨0, 0⟩), (groupKey 0 0 4, ⟨5, wrong⟩), (groupKey 0 0 8, ⟨6, 0⟩), (groupKey 0 0 12, ⟨7, 0⟩)]
/-- What `stored` holds in group g. -/
def data0 (g : Nat) : BitVec 64 := if g = 0 then 0 else BitVec.ofNat 64 (g + 4)
def wrong0 (wrong : BitVec 72) (g : Nat) : BitVec 72 := if g = 1 then wrong else 0

/-- Bank 0 at work in row 0 over four known groups. -/
def burst0 (r : Req) (wrong : BitVec 72) (s : State) : State :=
  (atWork 0 r { s with store := { s.store with mem := stored wrong } })

/-- The four groups are as named, and the flips of one bit in group 0 leave each with at most two wrong bits. -/
theorem groups_met (r : Req) (s : State) (wrong : BitVec 72) (h : wrongBits wrong ≤ 2) : ∀ g, g < 4 →
    tableGet (burst0 r wrong s).store.mem (groupKey 0 0 (0 % 256 + 4 * g)) =
      some { data := data0 g, wrong := wrong0 wrong g } ∧
    wrongBits (wrong0 wrong g ^^^ (1#288).extractLsb' (72 * g) 72) ≤ 2 := by
  intro g hg
  have e : (burst0 r wrong s).store.mem = stored wrong := rfl
  rw [e]
  have k : tableGet (stored wrong) (groupKey 0 0 (0 % 256 + 4 * g)) =
      some { data := data0 g, wrong := wrong0 wrong g } := by
    interval_cases g <;> simp [stored, tableGet, groupKey, data0, wrong0]
  refine ⟨k, ?_⟩
  by_cases h1 : g = 1
  · have z : (1#288).extractLsb' (72 * 1) 72 = 0#72 := by decide +kernel
    rw [h1, z, BitVec.xor_zero]
    exact h
  · simp only [wrong0, h1, if_false]
    clear k e h
    revert g
    decide +kernel

theorem meets_RefreshAndBankEvents :
    let bank : Ctrl → Option Work → State := fun k w => ready0.setBank 0 { bankReset with ctrl := k, work := w, ptr := 4111 }
    let overdue : State := ready0.setBank 1 { bankReset with debt := 8, work := some ⟨.closeRead 16, false, false⟩ }
    let w : Req → Option Work := fun r => some ⟨r, false, false⟩
    let remapped : State := (bank .closing (w (.fetch 0 1024))).setStore
      { (bank .closing (w (.fetch 0 1024))).store with links := [{ link3 with bank := 0, row := 1 }] }
    let asleep : Ctrl → State := fun k => { bank k none with part := .standby }
    ((ready0.bank 0).ctrl ≠ .selfRefresh ∧ (ready0.bank 0).debt < 8 ∧ (ready0.bank 0).ctrl = .closed ∧
        (ready0.bank 0).work = none ∧ (ready0.bank 0).waiting = [] ∧ ready0.part = .active ∧
        ∀ c, waitingRec 0 (ready0.chan c).fetch.outs = none) ∧
      (8 ≤ (overdue.bank 1).debt ∧ (overdue.bank 1).ctrl ≠ .selfRefresh ∧ overdue.mask.getLsbD 9 = true) ∧
      ((bank .selfRefresh none).bank 0).ctrl = .selfRefresh ∧
      ((bank (.opening 4111) (w (.fetch 0 0))).bank 0).ctrl = .opening 4111 ∧
      (((bank .closing (w .refresh)).bank 0).ctrl = .closing ∧ ((bank .closing (w .refresh)).bank 0).work = w .refresh) ∧
      ((bank .closing (w (.retireWrite 4096 0))).bank 0).work = w (.retireWrite 4096 0) ∧
      (∀ l ∈ (bank .closing (w (.fetch 0 1024))).store.links, l.bank = 0 → l.row = 1024 / 1024 → l.state ≠ .active) ∧
      (∃ l ∈ remapped.store.links, l.bank = 0 ∧ l.row = 1024 / 1024 ∧ l.state = .active ∧
        ∀ m ∈ remapped.store.links, m = l) ∧
      (((asleep .closing).bank 0).work = none ∧ (asleep .closing).part ≠ .active) ∧
      (((bank .closing none).bank 0).work = none ∧ ((bank .closing none).bank 0).debt = 0) ∧
      (((bank .refreshing (w .refresh)).bank 0).ctrl = .refreshing ∧
        ((bank .refreshing (w .refresh)).bank 0).ptr ≤ 4111 ∧ ((bank .refreshing (w .refresh)).bank 0).debt ≤ 1) ∧
      (asleep .refreshing).part ≠ .active ∧
      (((bank (.opened 7) none).bank 0).ctrl = .opened 7 ∧ ((bank (.opened 7) none).bank 0).work = none ∧
        ((bank (.opened 7) none).bank 0).debt < 8 ∧ ((bank (.opened 7) none).bank 0).waiting = []) := by
  intro bank overdue w remapped asleep
  and_intros <;> decide

/-- R95: a refresh granted at an OPEN bank closes it first. -/
theorem test_refresh_at_an_open_bank_closes_it :
    (match exec .refreshIntervalExpiry (freeBank (.opened 7)) with
      | .next t => some ((t.bank 0).ctrl, (t.bank 0).work.map fun w => w.req)
      | _ => none) = some (.closing, some .refresh) := by decide

/-- The clauses of the arbiter's choice, each at a bank that becomes free: an urgent refresh, a hungry channel behind the
pointer, the first of class 3, a channel that is not hungry, the first of class 5, a refresh, nothing. -/
theorem meets_RefreshAndBankEvents_choice :
    let rec0 : FetchRec := { next := false, addr := 0, first := 0, last := 15, st := .waiting, discard := false }
    let lane : Option Cursor → Channel := fun k => { playing with fetch := { fetchReset with outs := [rec0], cursor := k } }
    let k0 : Cursor := { next := false, idx := 16, passes := 1 }
    let s : Channel → List Req → Nat → State := fun ch w debt =>
      (lanes ch0 ch ch0 ch0).setBank 0 { bankReset with ctrl := .closing, waiting := w, debt := debt, rr := 0 }
    let hungry : Channel → Bool := fun ch => decide (ch.fetch.window.length - ch.fetch.stale < 32 ∧ ch.fetch.cursor ≠ none)
    ((s ch0 [] 4).bank 0).debt = 4 ∧ ((s ch0 [] 4).bank 0).ctrl = .closing ∧ ((s ch0 [] 4).bank 0).work = none ∧
      (hungry (lane (some k0)) = true ∧ rec0.st = .waiting ∧ bankOf rec0.addr = 0 ∧ ((1 : Chan) - 0 - 1).val = 0 ∧
        ((s (lane (some k0)) [.loadWrite 0] 3).bank 0).debt < 4) ∧
      hungry (lane none) = false ∧ ((s (lane none) [.mgmtRead 16] 0).bank 0).waiting = [.mgmtRead 16] ∧
      ((s ch0 [.mgmtRead 0, .closeRead 16, .loadWrite 32] 0).bank 0).waiting = [.mgmtRead 0, .closeRead 16, .loadWrite 32] ∧
      ((s ch0 [] 1).bank 0).waiting = [] ∧ ((s ch0 [] 0).bank 0).debt = 0 ∧ ∀ c, ((s ch0 [] 0).chan c).fetch.outs = [] := by
  intro rec0 lane k0 s hungry
  and_intros <;> decide

theorem meets_FetchBurstPlacesItsWords :
    let r : FetchRec := { next := false, addr := 0, first := 0, last := 15, st := .granted, discard := false }
    let lane : Channel := { playing with fetch := { fetchReset with outs := [r] } }
    let s := burst0 (.fetch 0 0) 1 (lanes lane ch0 ch0 ch0)
    let given := burst0 (.fetch 0 0) 1 (lanes { lane with fetch := { fetchReset with outs := [{ r with discard := true }] } } ch0 ch0 ch0)
    s.resetLow = false ∧ (s.bank 0).ctrl = .opened 0 ∧
      (s.bank 0).work = some ⟨.fetch 0 r.addr, false, false⟩ ∧ (s.chan 0).fetch.outs = r :: [] ∧ r.st = .granted ∧
      bankOf r.addr = 0 ∧ r.discard = false ∧ ((given.chan 0).fetch.outs = { r with discard := true } :: []) ∧
      s.mask.getLsbD 8 = true ∧
      (∀ g, g < 4 → tableGet s.store.mem (groupKey 0 0 (r.addr % 256 + 4 * g)) =
          some { data := data0 g, wrong := wrong0 1 g } ∧
        wrongBits (wrong0 1 g ^^^ (1#288).extractLsb' (72 * g) 72) ≤ 2) ∧
      wrongBits 3 ≤ 2 := by
  intro r lane s given
  refine ⟨rfl, rfl, rfl, rfl, rfl, by decide, rfl, rfl, by decide, ?_, by decide⟩
  exact groups_met (.fetch 0 0) (lanes lane ch0 ch0 ch0) 1 (by decide)

/-- The further clauses: a PRIMING channel with the burst that primes it and one that does not, a record behind it with
room for no more and for one more, and bursts that complete out of order. -/
theorem meets_FetchBurstPlacesItsWords_more :
    let r : FetchRec := { next := false, addr := 0, first := 0, last := 15, st := .granted, discard := false }
    let y : FetchRec := { r with addr := 256, first := 16, last := 31, st := .waiting }
    let k : Cursor := { next := false, idx := 16, passes := 1 }
    let ch : Nat → List FetchRec → Channel := fun n outs =>
      { playing with st := .priming, fetch := { fetchReset with window := words n, outs := outs, cursor := some k } }
    let s : Nat → List FetchRec → State := fun n outs => burst0 (.fetch 0 0) 0
      { lanes (ch n outs) ch0 ch0 ch0 with
        groups := ⟨some ⟨⟨true, false, false, false⟩, .immediate, false, false⟩, none, none, none⟩ }
    let back : FetchRec := { y with st := .returned [(4, false)] }
    (InOneGroup (s 16 [r]) 0 ∧ ((s 16 [r]).chan 0).st = .priming ∧ ((s 16 [r]).chan 0).cfg.mode = .play ∧
        ((s 16 [r]).chan 0).ctx = some ctx3 ∧ 32 ≤ 16 + 16 ∧ ¬(32 ≤ 15 + 16)) ∧
      (((s 16 [r, y]).chan 0).fetch.cursor = some k ∧ k.next = false ∧ ((s 16 [r, y]).chan 0).queue = [] ∧
        ((s 16 [r, y]).chan 0).fetch.outs = r :: [y] ∧ 16 + 16 ≤ 32 ∧ 32 < 17 + 16) ∧
      (bankOf y.addr ≠ 0 ∧ (∀ ws, y.st ≠ .returned ws) ∧ ((s 2 [y, r]).chan 0).fetch.outs = [y, r]) ∧
      (let last : State := s 16 [r]
       let a : Channel := { ch 16 [r] with st := .running, queue := [entry3], fetch := { (ch 16 [r]).fetch with cursor := some ⟨false, 16, 1⟩ } }
       ((last.setChan 0 a).chan 0).queue.head? = some entry3 ∧ cursorBehind ((last.setChan 0 a).segOf 3) ⟨false, 16, 1⟩ = none) ∧
      (back.st = .returned [(4, false)] ∧ ((s 2 [r, back]).chan 0).fetch.outs = [r, back]) ∧
      ∀ g, g < 4 → ∃ old, tableGet (s 2 [y, r]).store.mem (groupKey 0 0 (r.addr % 256 + 4 * g)) =
          some { data := data0 g, wrong := old } ∧ wrongBits (old ^^^ (0#288).extractLsb' (72 * g) 72) ≤ 1 := by
  intro r y k ch s back
  refine ⟨⟨inOneGroup_of (by decide), rfl, rfl, rfl, by decide, by decide⟩, ⟨rfl, rfl, rfl, rfl, by decide, by decide⟩,
    ⟨by decide, (fun ws h => by cases h), rfl⟩, by decide, ⟨rfl, rfl⟩,
    fun g hg => ⟨wrong0 0 g, ?_, ?_⟩⟩
  · exact (groups_met (.fetch 0 0) _ 0 (by decide) g hg).1
  · revert g
    decide +kernel

/-- The decision behind the burst, with the row still open: nothing waits, and a management read of the open row and of
another one. -/
theorem meets_FetchBurstPlacesItsWords_grant :
    let r : FetchRec := { next := false, addr := 0, first := 0, last := 15, st := .granted, discard := false }
    let s : List Req → State := fun l =>
      (burst0 (.fetch 0 0) 1 (lanes { playing with fetch := { fetchReset with outs := [r] } } ch0 ch0 ch0)).setBank 0
        { bankReset with ctrl := .opened 0, work := some ⟨.fetch 0 0, false, false⟩, waiting := l }
    ∀ l ∈ [[], [Req.mgmtRead 16], [.mgmtRead 1024]], (s l).part = .active ∧ ((s l).bank 0).waiting = l ∧
      ((s l).bank 0).work = some ⟨.fetch 0 r.addr, false, false⟩ ∧ ((s l).chan 0).fetch.outs = r :: [] := by decide

theorem meets_LoadWriteStoresItsCell :
    let s := atWork 0 (.loadWrite 0) { ready0 with ldw := { window := some { window0 with base := 0, next := 0 }, buffer := [7, 8] } }
    let w : LoadWindow := { window0 with base := 0, next := 0 }
    s.resetLow = false ∧ (s.bank 0).ctrl = .opened 0 ∧ (s.bank 0).work = some ⟨.loadWrite 0, false, false⟩ ∧
      (∀ d, ∀ x ∈ (s.bank d).work, x.req.isLoadWrite = true → d = 0) ∧ s.ldw.window = some w ∧
      s.ldw.buffer = 7 :: [8] ∧ s.cmdQ = [] ∧ w.accepting = true ∧ w.written + 16 < w.length ∧
      ({ w with written := 32 } : LoadWindow).length ≤ 32 + 16 ∧
      ({ w with accepting := false } : LoadWindow).accepting = false ∧
      ({ s with mgu := .executing (.loadClose 4) } : State).mgu = .executing (.loadClose 4) ∧
      s.ltx.replies.length < 4 ∧ 4 ≤ (List.replicate 4 (⟨0x50, 1, .ok, []⟩ : Reply)).length ∧
      ∀ tag, s.mgu ≠ .executing (.loadClose tag) := by
  intro s w
  refine ⟨rfl, rfl, rfl, by decide, rfl, rfl, rfl, rfl, by decide, by decide, rfl, rfl, by decide, by decide, ?_⟩
  intro tag e
  cases e

/-- Sixteen weak rows of bank 1, flagged as given. -/
def weakList (flagged : Bool) : List Weak := (List.range 16).map fun n => { bank := 1, row := n, count := 3, flagged := flagged }

/-- A close read over an UNCORRECTABLE group 1 and, by a bit that has newly gone wrong, a CORRECTED group 0, or over CLEAN
groups; the row's entry in the weak row list, a list with room, a full one with and without unflagged entries, and a row that
a USER link takes out of it. -/
theorem meets_CloseReadRecordsItsOutcome :
    let s : BitVec 72 → List Weak → List Link → State := fun wrong weak links =>
      burst0 (.closeRead 0) wrong { ready0 with store := { ready0.store with weak := weak, links := links } }
    let s0 := s 3 [⟨0, 0, 7, false⟩] []
    (s0.resetLow = false ∧ (s0.bank 0).ctrl = .opened 0 ∧ (s0.bank 0).work = some ⟨.closeRead 0, false, false⟩ ∧
        ∀ e, ∀ x ∈ (s0.bank e).work, x.req.isCloseRead = true → e = 0) ∧
      (∀ g, g < 4 → tableGet s0.store.mem (groupKey 0 0 (0 % 256 + 4 * g)) =
          some { data := data0 g, wrong := wrong0 3 g } ∧
        wrongBits (wrong0 3 g ^^^ (1#288).extractLsb' (72 * g) 72) ≤ 2) ∧
      (wrongBits (wrong0 3 0 ^^^ (1#288).extractLsb' (72 * 0) 72) = 1 ∧
        wrongBits (wrong0 3 1 ^^^ (1#288).extractLsb' (72 * 1) 72) = 2) ∧
      (∀ g, g < 4 → wrongBits (wrong0 0 g ^^^ (0#288).extractLsb' (72 * g) 72) = 0) ∧
      (let l := { link3 with bank := 0, row := 0 }
       ((s 3 [] [l]).store.links.find? fun m => decide (m.bank = 0 ∧ m.row = 0)) = some l ∧ l.state = .active ∧
         l.origin = .user) ∧
      (s0.store.weak = [] ++ ⟨0, 0, 7, false⟩ :: [] ∧ s0.mask.getLsbD 7 = true ∧ s0.store.threshold.toNat ≤ 7 + 1) ∧
      (s 3 [] []).store.weak.length < 16 ∧
      (16 ≤ (weakList true).length ∧ ∀ x ∈ weakList true, x.flagged = true ∧ ¬(x.bank = 0 ∧ x.row = 0)) ∧
      (weakList false = [] ++ ⟨1, 0, 3, false⟩ :: (weakList false).drop 1 ∧
        ∀ y ∈ (weakList false).drop 1, y.flagged = false → (3#8).toNat ≤ y.count.toNat) := by
  intro s s0
  refine ⟨⟨rfl, rfl, rfl, by decide⟩, ?_, by decide +kernel, by decide +kernel, by decide, by decide, by decide, by decide, by decide⟩
  exact groups_met (.closeRead 0) { ready0 with store := { ready0.store with weak := [⟨0, 0, 7, false⟩], links := [] } } 3
    (by decide)

/-- Nothing to ask for behind the close read, at a bank that stays open with requests waiting and at one that closes. -/
theorem meets_CloseReadRecordsItsOutcome_grant :
    let s : Bool → List Req → State := fun close l => (burst0 (.closeRead 0) 0 ready0).setBank 0
      { bankReset with ctrl := .opened 0, work := some ⟨.closeRead 0, close, false⟩, waiting := l }
    ((s false []).ldw.window = none ∧ ({ window := some window0, buffer := [] } : Ldw).buffer = []) ∧
      (∀ l ∈ [[], [Req.mgmtRead 16], [.mgmtRead 1024]], ((s false l).bank 0).ctrl = .opened 0 ∧ (s false l).part = .active ∧
        ((s false l).bank 0).work = some ⟨.closeRead 0, false, false⟩ ∧ ((s false l).bank 0).waiting = l) ∧
      ((s true []).bank 0).work = some ⟨.closeRead 0, true, false⟩ := by decide

/-- R126, the example of the spec: a CORRECTED outcome on row 500 of bank 2 evicts the oldest unflagged
entry with the lowest count. -/
theorem test_weak_list_evicts_the_oldest_lowest :
    let l : List Weak := [⟨0, 12, 9, true⟩, ⟨1, 300, 2, false⟩, ⟨3, 7, 1, false⟩, ⟨2, 90, 1, false⟩] ++
      (List.range 12).map fun n => { bank := 1, row := n, count := 3, flagged := false }
    ((weakRecord l 8 2 500 false).1.map fun w => (w.bank.val, w.row)).take 3 = [(0, 12), (1, 300), (2, 90)] ∧
      (weakRecord l 8 2 500 false).1[15]? = some ⟨2, 500, 1, false⟩ := by decide

theorem meets_StoreReadTakesItsWords :
    let one : Mgu := .executing (.storeRead 4 0 12 [] [] 0)
    let two : Mgu := .executing (.storeRead 4 5 12 [] [] 0)
    let s : Mgu → State := fun m => burst0 (.mgmtRead 0) 1 { ready0 with mgu := m }
    (s one).resetLow = false ∧ ((s one).bank 0).ctrl = .opened 0 ∧
      ((s one).bank 0).work = some ⟨.mgmtRead 0, false, false⟩ ∧
      (∀ e, ∀ x ∈ ((s one).bank e).work, x.req.isMgmtRead = true → e = 0) ∧ (s one).mgu = one ∧ (s two).mgu = two ∧
      (s one).cmdQ = [] ∧ (s one).ltx.replies.length < 4 ∧
      4 ≤ ({ (s one).ltx with replies := List.replicate 4 (⟨0x50, 1, .ok, []⟩ : Reply) } : Ltx).replies.length ∧
      (∀ g, g < 4 → tableGet (s one).store.mem (groupKey 0 0 (0 % 256 + 4 * g)) =
          some { data := data0 g, wrong := wrong0 1 g } ∧
        wrongBits (wrong0 1 g ^^^ (1#288).extractLsb' (72 * g) 72) ≤ 2) ∧ 0 + 16 < 5 + 12 ∧ 0 + 12 ≤ 0 + 16 := by
  intro one two s
  refine ⟨rfl, rfl, rfl, by decide, rfl, rfl, rfl, by decide, by decide, ?_, by decide, by decide⟩
  exact groups_met (.mgmtRead 0) { ready0 with mgu := one } 1 (by decide)

theorem meets_RetireCopiesItsRow :
    let r : Retire := { bank := 0, row := 0, spare := 3, pos := 0, words := 0, bad := 0 }
    let l : Link := { bank := 0, row := 0, spare := 2, target := some 3, origin := .user, state := .active }
    let base : Retire → State := fun r => { ready0 with
      retire := some r, slots := { ready0.slots with retire := some 8 }, store := { ready0.store with links := [l] } }
    let reads := burst0 (.retireRead 0) 1 (base r)
    let writes := (base { r with pos := 15 }).setBank 0
      { bankReset with ctrl := .opened 4099, work := some ⟨.retireWrite 4099 240, false, false⟩ }
    (reads.resetLow = false ∧ (reads.bank 0).ctrl = .opened 0 ∧
        (reads.bank 0).work = some ⟨.retireRead 0, false, false⟩ ∧ reads.retire = some r ∧ r.bank = 0 ∧
        ∀ e, ∀ x ∈ (reads.bank e).work, x.req.isRetireRead = true ∨ x.req.isRetireWrite = true → e = 0) ∧
      (∀ g, g < 4 → tableGet reads.store.mem (groupKey 0 0 (0 % 256 + 4 * g)) =
          some { data := data0 g, wrong := wrong0 1 g } ∧
        wrongBits (wrong0 1 g ^^^ (1#288).extractLsb' (72 * g) 72) ≤ 2) ∧
      ((writes.bank 0).ctrl = .opened 4099 ∧ (writes.bank 0).work = some ⟨.retireWrite 4099 240, false, false⟩ ∧
        writes.retire = some { r with pos := 15 } ∧ writes.slots.retire = some 8 ∧ l ∈ writes.store.links ∧
        (∀ m ∈ writes.store.links, m.bank = 0 → m.row = 0 → m = l) ∧ l.target.isSome = true) ∧
      ((∃ k ∈ (writes.bank 0).work, k.closePage = false ∧ k.closeAfter = false) ∧ writes.part = .active ∧
        4099 ≠ 4096 + l.spare ∧ (writes.bank 0).waiting = [] ∧ (writes.bank 0).debt = 0 ∧
        (∀ c, waitingRec 0 (writes.chan c).fetch.outs = none) ∧
        ({ writes with part := .standby } : State).part ≠ .active) ∧
      ({ r with pos := 14 } : Retire).pos < 15 := by
  intro r l base reads writes
  refine ⟨⟨rfl, rfl, rfl, rfl, rfl, by decide⟩, ?_, by decide, by decide, by decide⟩
  exact groups_met (.retireRead 0) (base r) 1 (by decide)

theorem meets_InitWriteClearsAndMovesOn :
    let s : Quad Nat → State := fun walk =>
      atWork 0 (.initWrite 0) { ready0 with init := some walk, slots := { ready0.slots with storeInit := some 6 } }
    (s ⟨0, 0, 0, 0⟩).resetLow = false ∧ ((s ⟨0, 0, 0, 0⟩).bank 0).ctrl = .opened 0 ∧
      ((s ⟨0, 0, 0, 0⟩).bank 0).work = some ⟨.initWrite 0, false, false⟩ ∧
      (s ⟨0, 0, 0, 0⟩).init = some ⟨0, 0, 0, 0⟩ ∧ (s ⟨0, 0, 0, 0⟩).slots.storeInit = some 6 ∧
      (let q : Quad Nat := ⟨65534, 65536, 65536, 65536⟩; q.get 0 + 1 < 65536) ∧
      (let q : Quad Nat := ⟨65535, 65536, 65535, 65536⟩; ∃ d, d ≠ 0 ∧ q.get d < 65536) ∧
      (let q : Quad Nat := ⟨65535, 65536, 65536, 65536⟩; 65536 ≤ q.get 0 + 1 ∧ ∀ d, d ≠ 0 → 65536 ≤ q.get d) := by
  intro s
  refine ⟨rfl, rfl, rfl, rfl, rfl, by decide, by decide, by decide⟩

theorem meets_ResetsGiveTheirValues :
    let low : State := { ready0 with resetLow := true }
    ready0.cal.job = none ∧ ready0.cal.written.length = 8 ∧ ready0.cal.verified.length = 8 ∧ ready0.resetLow = false ∧
      low.resetLow = true ∧ ready0.cal.pages.length = 8 ∧
      (∃ image, ({ pages with cal := { pages.cal with job := some (.program 2 0) } } : State).cal.job =
        some (.program 2 image)) ∧
      ({ pages with cal := { pages.cal with job := some .lock } } : State).cal.job = some .lock ∧
      (ready0.cal.written.getD 7 false = false ∧ ready0.cal.verified.getD 7 false = false) ∧
      (ready0.cal.written.getD 1 false = true ∧ ready0.cal.verified.getD 1 false = true) := by
  intro low
  exact ⟨rfl, rfl, rfl, rfl, rfl, rfl, ⟨0, rfl⟩, rfl, by decide, by decide⟩

/-- R184: a listed link that names row 9 of bank 1 and spare 2 is taken; behind it one with the same spare, one with the
same row and one of bank 4 are skipped. -/
theorem test_listed_links_are_taken_in_order :
    let x := takeLink (takeLink (takeLink (takeLink storeReset 1 9 2) 1 10 2) 1 9 3) 4 0 0
    x.links = [{ bank := 1, row := 9, spare := 2, target := none, origin := .factory, state := .active }] ∧
      (x.spares.get 1)[2]? = some .linked ∧ (x.spares.get 1)[3]? = some .free := by decide

/-- R155, R154: POWER_ON begins the first cell: fill, with the credit report of STREAM0. -/
theorem test_power_on_begins_the_first_cell :
    (upstreamStarts State.reset).ltx.rot = 1 ∧
      (match (upstreamStarts State.reset).ltx.line with
        | .cell c => some (c.extractLsb' 288 16)
        | _ => none) = some 0xF000 := by decide +kernel

theorem meets_PinResetHoldsThePart :
    let low : State := { ready0 with resetLow := true }
    let retiring : State := { ready0 with retire := some retire0 }
    let job : CalJob → State := fun j => { pages with cal := { pages.cal with job := some j } }
    (ready0.resetLow = false ∧ (∀ b, (ready0.bank b).work = none) ∧ ready0.retire = none ∧ ready0.cal.job = none) ∧
      retiring.retire = some retire0 ∧ (job .lock).cal.job = some .lock ∧
      (job (.program 2 0)).cal.job = some (.program 2 0) ∧ low.resetLow = true ∧
      (job (.program 2 0)).cal.pages.length = 8 ∧
      (let s := atWork 0 (.loadWrite 64) loading
       tableWf s.store.mem = true ∧ (s.bank 0).ctrl = .opened 0 ∧
         (s.bank 0).work = some ⟨.loadWrite 64, false, false⟩ ∧ (s.bank 1).work = none) ∧
      Instr.fillCell ≠ .pinResetRelease ∧ ready0.startingUp = false ∧
      (State.reset.startingUp = true ∧ State.reset.cmdQ = []) ∧ State.reset.resetLow = false ∧
      (let cell : CtlCell := { tag := 5, op := .status }
       ({ State.reset with cmdQ := [cell] } : State).cmdQ = cell :: [] ∧ State.reset.mgu = .available) := by
  intro low retiring job
  refine ⟨by decide, rfl, rfl, rfl, rfl, rfl, by decide, by decide, rfl, by decide, rfl, rfl, rfl⟩

end Sys2Proof.Tests
end

section
/-! SEG_DEFINE (R7): its rule check by check over an arbitrary state, and what the command answers. -/

namespace Sys2Proof.Machine

section

variable {index : BitVec 16} {base length : BitVec 32} {given : Byte} {loop : BitVec 32} {s : State}

/-- Check 4 of R7 in propositions. -/
theorem segFieldsOk_iff :
    segFieldsOk base length given loop = true ↔
      base.toNat % 16 = 0 ∧ 2 ≤ length.toNat ∧ length.toNat ≤ 4194304 ∧
        base.toNat + length.toNat ≤ 4194304 ∧ (given = 0 ∨ given = 1 ∧ loop.toNat < length.toNat) := by
  simp [segFieldsOk, and_assoc]

/-- Check 1 of R7. -/
theorem opSegDefine_of_index_out_of_range (hi : 512 ≤ index.toNat) :
    opSegDefine index base length given loop s = refuse .badIndex s :=
  if_pos hi

/-- Check 2 of R7. -/
theorem opSegDefine_of_use_pos {d : Desc} (hi : index.toNat < 512) (hd : s.seg index.toNat = some d)
    (hu : 0 < d.use) : opSegDefine index base length given loop s = refuse .inUse s := by
  simp [opSegDefine, hi.not_ge, hd, hu]

/-- Check 3 of R7, behind check 2. -/
theorem opSegDefine_of_locked {d : Desc} (hi : index.toNat < 512) (hd : s.seg index.toNat = some d)
    (hu : d.use = 0) (hl : d.locked = true) :
    opSegDefine index base length given loop s = refuse .protected_ s := by
  simp [opSegDefine, hi.not_ge, hd, hu, hl]

/-- Where checks 1 to 3 of R7 pass, an absent descriptor or one unused and unlocked, check 4 alone decides. -/
theorem opSegDefine_of_replaceable (hi : index.toNat < 512)
    (hold : ∀ d, s.seg index.toNat = some d → d.use = 0 ∧ d.locked = false) :
    opSegDefine index base length given loop s =
      if segFieldsOk base length given loop then
        okay [] { s with
          segs := tablePut s.segs index.toNat
            { base := base.toNat, length := length.toNat, loop := if given = 1 then some loop.toNat else none,
              locked := false, use := 0 } }
      else refuse .badArg s := by
  cases hd : s.seg index.toNat with
  | none => simp [opSegDefine, hi.not_ge, hd]
  | some d =>
    obtain ⟨hu, hl⟩ := hold d hd
    simp [opSegDefine, hi.not_ge, hd, hu, hl]

/-- No common refusal meets SEG_DEFINE at an ACTIVE part: it is a known code without a slot (R158). -/
theorem commonRefusal_segDefine (hpart : s.part = .active) :
    commonRefusal (.segDefine index base length given loop) s = none := by
  simp [commonRefusal, slotTaken, hpart]

/-- A refusal by SEG_DEFINE's own rule at the take is the refusal of the command. -/
theorem segDefine_refuses (tag : BitVec 16) {status : Code} (hready : ReadyActive s)
    (hrule : opSegDefine index base length given loop (controlTaken s) = refuse status (controlTaken s)) :
    Refuses (.segDefine tag index base length given loop) s tag 0x01 status :=
  exec_of_refusal hready rfl (commonRefusal_segDefine hready.2) hrule

/-- A directory written by SEG_DEFINE's own rule at the take is the answer of the command. -/
theorem segDefine_answers (tag : BitVec 16) {segs : List (Nat × Desc)} (hready : ReadyActive s)
    (hrule : opSegDefine index base length given loop (controlTaken s) =
      okay [] { controlTaken s with segs := segs }) :
    Answers (.segDefine tag index base length given loop) s tag 0x01 .ok [] { controlTaken s with segs := segs } :=
  exec_of_rule hready rfl (commonRefusal_segDefine hready.2) hrule rfl rfl

end

/-- Settles O11: each check of R7 decides the operation's rule over the part as it stands at the take, whose directory is
the one before it. -/
theorem segDefineByItsChecks : Obligations.SegDefineByItsChecks := by
  intro tag index base length given loop s hready
  refine ⟨fun hi => ?outOfRange, fun hi => ⟨fun d hd hu => ?inUse, fun d hd hu hl => ?locked, fun hold => ?replaceable⟩⟩
  case outOfRange => exact segDefine_refuses tag hready (opSegDefine_of_index_out_of_range hi)
  case inUse => exact segDefine_refuses tag hready (opSegDefine_of_use_pos hi hd hu)
  case locked => exact segDefine_refuses tag hready (opSegDefine_of_locked hi hd hu hl)
  case replaceable =>
    split
    next hfields =>
      exact segDefine_answers tag hready
        ((opSegDefine_of_replaceable (s := controlTaken s) hi hold).trans (if_pos (segFieldsOk_iff.mpr hfields)))
    next hfields =>
      exact segDefine_refuses tag hready
        ((opSegDefine_of_replaceable (s := controlTaken s) hi hold).trans (if_neg (mt segFieldsOk_iff.mp hfields)))

end Sys2Proof.Machine
end

section
/-! The shaping arithmetic (R48 to R53, R56): each step's value in integers and its range. Steps 2 and 6 move by a rounded
share of a difference, and one lemma about such a share bounds both. -/

namespace Sys2Proof.Machine

/-! ### Products and rounded shares -/

/-- The product of a difference of at most `D` and a share of at most `M`. -/
theorem mul_within_of_within {d m D M : Int} (hd : -D ≤ d ∧ d ≤ D) (hm : 0 ≤ m ∧ m ≤ M) :
    -(D * M) ≤ d * m ∧ d * m ≤ D * M := by
  have hD : |d| ≤ D := abs_le.mpr hd
  have hM : |m| ≤ M := (abs_of_nonneg hm.1).trans_le hm.2
  have hprod : |d * m| ≤ D * M :=
    (abs_mul d m).trans_le (mul_le_mul hD hM (abs_nonneg m) ((abs_nonneg d).trans hD))
  exact abs_le.mp hprod

/-- A value moved towards another by the share `m / n` of their difference, rounded by any `0 ≤ h < n`, stays between
the two: the product `(y - x) * m` lies between 0 and `(y - x) * n`, and the rounding does not reach the next multiple. -/
theorem add_rounded_share_between (x y : Int) {m n h : Int} (hm : 0 ≤ m ∧ m ≤ n) (hh : 0 ≤ h ∧ h < n) :
    min x y ≤ x + ((y - x) * m + h) / n ∧ x + ((y - x) * m + h) / n ≤ max x y := by
  obtain ⟨hm0, hmn⟩ := hm
  obtain ⟨hh0, hhn⟩ := hh
  have hn : 0 < n := hh0.trans_lt hhn
  rcases le_total x y with hxy | hyx
  · have hlow : 0 ≤ (y - x) * m := mul_nonneg (sub_nonneg.mpr hxy) hm0
    have hhigh : (y - x) * m ≤ (y - x) * n := mul_le_mul_of_nonneg_left hmn (sub_nonneg.mpr hxy)
    have hnonneg : 0 ≤ ((y - x) * m + h) / n := Int.ediv_nonneg (by omega) hn.le
    have hlt : ((y - x) * m + h) / n < y - x + 1 := Int.ediv_lt_of_lt_mul hn (by rw [add_mul]; omega)
    omega
  · have hlow : (y - x) * n ≤ (y - x) * m := mul_le_mul_of_nonpos_left hmn (sub_nonpos.mpr hyx)
    have hhigh : (y - x) * m ≤ 0 := mul_nonpos_of_nonpos_of_nonneg (sub_nonpos.mpr hyx) hm0
    have hge : y - x ≤ ((y - x) * m + h) / n := (Int.le_ediv_iff_mul_le hn).mpr (by omega)
    have hlt : ((y - x) * m + h) / n < 1 := Int.ediv_lt_of_lt_mul hn (by omega)
    omega

/-! ### The range of a sample, and the clamp of steps 5 and 7 -/

/-- A 16-bit sample is within −32768 to 32767 (R44). -/
theorem sample_within (y : BitVec 16) : -32768 ≤ y.toInt ∧ y.toInt ≤ 32767 := by
  have hlow := BitVec.le_toInt y
  have hhigh := BitVec.toInt_lt (x := y)
  omega

theorem clampInt_eq_max_min {lo hi : Int} (h : lo ≤ hi) (v : Int) : clampInt lo hi v = max lo (min hi v) := by
  unfold clampInt
  split_ifs <;> omega

/-- A clamp leaves a value within its limits as it is. -/
theorem clampInt_eq_self {lo hi v : Int} (h : lo ≤ v ∧ v ≤ hi) : clampInt lo hi v = v := by
  rw [clampInt_eq_max_min (h.1.trans h.2), min_eq_right h.2, max_eq_right h.1]

/-! ### Step 2: interpolation (R48, R49) -/

@[simp] theorem interpolate_nearest (y0 y1 : Int) (f : BitVec 32) : interpolate .nearest y0 y1 f = y0 := rfl

theorem interpolate_linear (y0 y1 : Int) (f : BitVec 32) :
    interpolate .linear y0 y1 f = y0 + ((y1 - y0) * ((f.toNat / 65536 : Nat) : Int) + 32768) / 65536 := rfl

/-- The upper half of the fraction is at most 65535. -/
theorem fractionHigh_within (f : BitVec 32) :
    0 ≤ ((f.toNat / 65536 : Nat) : Int) ∧ ((f.toNat / 65536 : Nat) : Int) ≤ 65535 := by
  have := f.isLt
  omega

/-- LINEAR stays between the two samples (R49). -/
theorem interpolate_linear_between (y0 y1 : Int) (f : BitVec 32) :
    min y0 y1 ≤ interpolate .linear y0 y1 f ∧ interpolate .linear y0 y1 f ≤ max y0 y1 := by
  have hshare := fractionHigh_within f
  exact add_rounded_share_between y0 y1 ⟨hshare.1, by omega⟩ (by decide)

/-- A share of 0 gives the first sample. -/
theorem interpolate_linear_of_share_zero {f : BitVec 32} (hf : f.toNat < 65536) (y0 y1 : Int) :
    interpolate .linear y0 y1 f = y0 := by
  simp [interpolate_linear, Nat.div_eq_of_lt hf]

/-- Equal samples give their common value. -/
theorem interpolate_linear_self (y : Int) (f : BitVec 32) : interpolate .linear y y f = y := by
  simp [interpolate_linear]

/-! ### Steps 3 and 4: gain and offset (R50, R51) -/

/-- The range of the product of two samples: its least value has factors of unlike sign, −32768 and 32767, its greatest
is the square of −32768. Each bound adds the products of the factors' distances to two opposite corners. -/
theorem sample_product_within {v g : Int} (hv : -32768 ≤ v ∧ v ≤ 32767) (hg : -32768 ≤ g ∧ g ≤ 32767) :
    -1073709056 ≤ v * g ∧ v * g ≤ 1073741824 := by
  obtain ⟨hv0, hv1⟩ := hv
  obtain ⟨hg0, hg1⟩ := hg
  have hlowlow : 0 ≤ (v + 32768) * (g + 32768) := mul_nonneg (by omega) (by omega)
  have hhighhigh : 0 ≤ (32767 - v) * (32767 - g) := mul_nonneg (by omega) (by omega)
  have hlowhigh : 0 ≤ (v + 32768) * (32767 - g) := mul_nonneg (by omega) (by omega)
  have hhighlow : 0 ≤ (32767 - v) * (g + 32768) := mul_nonneg (by omega) (by omega)
  constructor <;> linarith

/-- The gained value of a sample is within −65534 to 65536 (R50). -/
theorem applyGain_within {v g : Int} (hv : -32768 ≤ v ∧ v ≤ 32767) (hg : -32768 ≤ g ∧ g ≤ 32767) :
    -65534 ≤ applyGain v g ∧ applyGain v g ≤ 65536 := by
  have hprod := sample_product_within hv hg
  unfold applyGain
  omega

/-- The gain 16384 is 1. -/
@[simp] theorem applyGain_one (v : Int) : applyGain v 16384 = v := by
  unfold applyGain
  omega

/-- The gain −16384 is −1. -/
theorem applyGain_neg_one (v : Int) : applyGain v (-16384) = -v := by
  unfold applyGain
  omega

theorem applyGain_zero (v : Int) : applyGain v 0 = 0 := by
  simp [applyGain]

/-- A 17-bit offset is within −65536 to 65535 (R12). -/
theorem offset_within (o : BitVec 17) : -65536 ≤ o.toInt ∧ o.toInt ≤ 65535 := by
  have hlow := BitVec.le_toInt o
  have hhigh := BitVec.toInt_lt (x := o)
  omega

/-- Settles O9: the rounded share keeps LINEAR between its samples, and the ranges of the product and of the sum follow
from those of the sample, the gain and the offset. -/
theorem interpolationGainAndOffset : Obligations.InterpolationGainAndOffset := by
  intro y0 y1 v g o f d fh x a
  have hd : -65535 ≤ d ∧ d ≤ 65535 := by
    have h0 := sample_within y0
    have h1 := sample_within y1
    omega
  obtain ⟨hfh0, hfh⟩ := fractionHigh_within f
  have hshare : -4294901760 ≤ d * fh ∧ d * fh ≤ 4294901760 :=
    mul_within_of_within hd (M := 65536) ⟨hfh0, by omega⟩
  obtain ⟨hxmin, hxmax⟩ := interpolate_linear_between y0.toInt y1.toInt f
  have hprod := sample_product_within (sample_within v) (sample_within g)
  have ha : -65534 ≤ a ∧ a ≤ 65536 := applyGain_within (sample_within v) (sample_within g)
  have ho := offset_within o
  have hequal (hy : y0 = y1) : x = y0.toInt := by simp [x, hy, interpolate_linear_self]
  have hone (hg : g.toInt = 16384) : a = v.toInt := by simp [a, hg]
  have hnegOne (hg : g.toInt = -16384) : a = -v.toInt := by simp [a, hg, applyGain_neg_one]
  have hzero (hg : g.toInt = 0) : a = 0 := by simp [a, hg, applyGain_zero]
  exact ⟨interpolate_nearest .., hfh, hd.1, hd.2, interpolate_linear .., hshare.1, hshare.2, hxmin, hxmax,
    fun hf => interpolate_linear_of_share_zero hf .., hequal, rfl, ha.1, ha.2, hprod.1, hprod.2, hone,
    hnegOne, hzero, by omega, by omega⟩

/-! ### Step 6: the correction curve (R53) -/

/-- A breakpoint is within −131072 to 131071 (R78). -/
theorem breakpoint_within (t : Curve) (k : Nat) : -131072 ≤ breakpoint t k ∧ breakpoint t k ≤ 131071 := by
  have hlow := BitVec.le_toInt (t.getD k 0)
  have hhigh := BitVec.toInt_lt (x := t.getD k 0)
  unfold breakpoint
  omega

/-- The value of a curve at the position `r` of its interval `k` (R53). -/
theorem evalCurve_of_interval (t : Curve) {c r : Int} {k : Nat} (hc : c + 32768 = 2048 * k + r)
    (hr : 0 ≤ r ∧ r ≤ 2047) :
    evalCurve t c = breakpoint t k + ((breakpoint t (k + 1) - breakpoint t k) * r + 1024) / 2048 := by
  have hk : (c + 32768).toNat / 2048 = k := by omega
  have hpos : (((c + 32768).toNat % 2048 : Nat) : Int) = r := by omega
  simp only [evalCurve, hk, hpos]

/-- Breakpoint k of the identity curve, as an integer (R53). -/
theorem breakpoint_identityCurve {k : Nat} (hk : k ≤ 32) : breakpoint identityCurve k = 2048 * k - 32768 := by
  have hget : identityCurve.getD k 0 = BitVec.ofInt 18 (2048 * k - 32768) := by
    simp [identityCurve, ← List.map_eq_flatMap, List.getElem?_range (Nat.lt_succ_of_le hk)]
  rw [breakpoint, hget, BitVec.toInt_ofInt, Int.bmod_eq_of_le] <;> omega

/-- The identity curve gives every sample back: its slope is 2048 in each interval (R53). -/
theorem evalCurve_identityCurve {c : Int} (hc : -32768 ≤ c ∧ c ≤ 32767) : evalCurve identityCurve c = c := by
  obtain ⟨k, hk⟩ : ∃ k : Nat, (c + 32768) / 2048 = k := Int.eq_ofNat_of_zero_le (by omega)
  rw [evalCurve_of_interval identityCurve (k := k) (r := (c + 32768) % 2048) (by omega) (by omega),
    breakpoint_identityCurve (by omega), breakpoint_identityCurve (by omega)]
  omega

/-! ### Steps 2 to 7 together (R44) -/

/-- What step 5 hands to step 6: the sum of steps 2 to 4, clamped to 16 bits (R52). -/
def clampedSum (snap : Profile) (y0 y1 : Int) (f : BitVec 32) : Int :=
  clampInt (-32768) 32767 (applyGain (interpolate snap.interp y0 y1 f) snap.gain.toInt + snap.offset.toInt)

section

variable {snap : Profile} {y0 : Int} (t : Curve) (lo hi y1 : Int) (f : BitVec 32)

/-- With APPLY the curve's value goes to the limits. -/
theorem shape_out_of_apply (h : snap.curve = .apply) :
    (shape snap t lo hi y0 y1 f).out = clampInt lo hi (evalCurve t (clampedSum snap y0 y1 f)) := by
  simp only [shape, h, clampedSum]

/-- With BYPASS the curve is not read. -/
theorem shape_out_of_bypass (h : snap.curve = .bypass) :
    (shape snap t lo hi y0 y1 f).out = clampInt lo hi (clampedSum snap y0 y1 f) := by
  simp only [shape, h, clampedSum]

/-- NEAREST, a gain of 1 and no offset leave a sample as it is. -/
theorem clampedSum_of_unity (hu : snap.interp = .nearest ∧ snap.gain = 16384 ∧ snap.offset = 0)
    (hy : -32768 ≤ y0 ∧ y0 ≤ 32767) : clampedSum snap y0 y1 f = y0 := by
  obtain ⟨hinterp, hgain, hoffset⟩ := hu
  have hone : (16384#16).toInt = 16384 := by decide
  simp [clampedSum, hinterp, hgain, hoffset, hone, clampInt_eq_self hy]

end

/-- Settles O10: the position of c within its interval is a share of at most 2047 of 2048, so the curve's value stays
between the interval's two breakpoints. -/
theorem curveStaysBetweenBreakpoints : Obligations.CurveStaysBetweenBreakpoints := by
  intro t c y1 f snap lo hi _ u k r t0 t1 e unity
  have hc := sample_within c
  have hu : 0 ≤ u ∧ u ≤ 65535 := by omega
  have hkInt : (k : Int) = u / 2048 := Int.toNat_of_nonneg (by omega)
  have hr : 0 ≤ r ∧ r ≤ 2047 := by omega
  have he : e = t0 + ((t1 - t0) * r + 1024) / 2048 := evalCurve_of_interval t (by omega) hr
  have ht0 : -131072 ≤ t0 ∧ t0 ≤ 131071 := breakpoint_within t k
  have ht1 : -131072 ≤ t1 ∧ t1 ≤ 131071 := breakpoint_within t (k + 1)
  have hdiff : -262143 ≤ t1 - t0 ∧ t1 - t0 ≤ 262143 := by omega
  have hprod : -536606721 ≤ (t1 - t0) * r ∧ (t1 - t0) * r ≤ 536606721 := mul_within_of_within hdiff hr
  have hbetween : min t0 t1 ≤ e ∧ e ≤ max t0 t1 :=
    he ▸ add_rounded_share_between t0 t1 ⟨hr.1, by omega⟩ (by decide)
  refine ⟨hu.1, hu.2, by omega, hr.1, hr.2, he, hdiff.1, hdiff.2, hprod.1, hprod.2, hbetween.1, hbetween.2, by omega,
    by omega, evalCurve_identityCurve hc, fun hunity happly hlim => ?apply, fun hunity hbypass hlim => ?bypass⟩
  case apply => rw [shape_out_of_apply _ _ _ _ _ happly, clampedSum_of_unity _ _ hunity hc, clampInt_eq_max_min hlim]
  case bypass => rw [shape_out_of_bypass _ _ _ _ _ hbypass, clampedSum_of_unity _ _ hunity hc, clampInt_eq_max_min hlim]

end Sys2Proof.Machine
end

section
/-! CURVE_WRITE (R80): what a stored breakpoint is worth, what a curve holds after values are put into it, and what the
command answers. -/

namespace Sys2Proof.Machine

/-! ### A stored breakpoint -/

/-- A value as stored in a curve, as an integer (R80). -/
theorem saturateBreakpoint_toInt (v : BitVec 24) :
    (saturateBreakpoint v).toInt = max (-131072) (min 131071 v.toInt) := by
  rw [saturateBreakpoint, BitVec.toInt_ofInt, clampInt_eq_max_min (by decide), Int.bmod_eq_of_le] <;> omega

/-- Saturation changes exactly the values outside the breakpoint range (R80). -/
theorem breakpointClipped_eq (v : BitVec 24) :
    breakpointClipped v = decide (v.toInt < -131072 ∨ 131071 < v.toInt) := by
  rw [breakpointClipped, saturateBreakpoint_toInt]
  exact decide_eq_decide.mpr (by omega)

/-! ### Values put into a curve -/

@[simp] theorem putBreakpoints_nil (first : Nat) (t : Curve) : putBreakpoints first [] t = t := rfl

theorem putBreakpoints_cons (first : Nat) (v : BitVec 24) (vs : List (BitVec 24)) (t : Curve) :
    putBreakpoints first (v :: vs) t = putBreakpoints (first + 1) vs (t.set first (saturateBreakpoint v)) := rfl

@[simp] theorem putBreakpoints_length (first : Nat) (vs : List (BitVec 24)) (t : Curve) :
    (putBreakpoints first vs t).length = t.length := by
  induction vs generalizing first t with
  | nil => rfl
  | cons v vs ih => rw [putBreakpoints_cons, ih, List.length_set]

/-- Below the first index put, a curve keeps its breakpoints. -/
theorem putBreakpoints_getD_below {first j : Nat} (hj : j < first) (vs : List (BitVec 24)) (t : Curve) :
    (putBreakpoints first vs t).getD j 0 = t.getD j 0 := by
  induction vs generalizing first t with
  | nil => rfl
  | cons v vs ih =>
    rw [putBreakpoints_cons, ih (hj.trans (Nat.lt_add_one first)), List.getD_eq_getElem?_getD,
      List.getElem?_set_ne hj.ne', List.getD_eq_getElem?_getD]

/-- At the indices put, a curve holds the values given, saturated. -/
theorem putBreakpoints_getD_put {first k : Nat} {vs : List (BitVec 24)} {t : Curve} (hk : k < vs.length)
    (hroom : first + vs.length ≤ t.length) :
    (putBreakpoints first vs t).getD (first + k) 0 = saturateBreakpoint (vs.getD k 0) := by
  induction vs generalizing first k t with
  | nil => exact absurd hk (Nat.not_lt_zero k)
  | cons v vs ih =>
    rw [List.length_cons] at hk hroom
    rw [putBreakpoints_cons]
    cases k with
    | zero =>
      rw [Nat.add_zero first, putBreakpoints_getD_below (Nat.lt_add_one first), List.getD_eq_getElem?_getD,
        List.getElem?_set_self (by omega)]
      rfl
    | succ k =>
      have hroom' : first + 1 + vs.length ≤ (t.set first (saturateBreakpoint v)).length := by
        rw [List.length_set]
        omega
      rw [← Nat.succ_add_eq_add_succ first k, List.getD_cons_succ]
      exact ih (Nat.lt_of_succ_lt_succ hk) hroom'

/-- Above the last index put, a curve keeps its breakpoints. -/
theorem putBreakpoints_getD_above {first j : Nat} {vs : List (BitVec 24)} (hj : first + vs.length ≤ j) (t : Curve) :
    (putBreakpoints first vs t).getD j 0 = t.getD j 0 := by
  induction vs generalizing first t with
  | nil => rfl
  | cons v vs ih =>
    rw [List.length_cons] at hj
    rw [putBreakpoints_cons, ih (by omega), List.getD_eq_getElem?_getD, List.getElem?_set_ne (by omega),
      List.getD_eq_getElem?_getD]

/-- How many values of a sequence are saturated (R80). -/
theorem countP_breakpointClipped_map (f : Nat → BitVec 24) (n : Nat) :
    ((List.range n).map f).countP breakpointClipped =
      (List.range n).countP fun k => decide ((f k).toInt < -131072 ∨ 131071 < (f k).toInt) := by
  rw [List.countP_map]
  exact List.countP_congr fun k _ => by rw [Function.comp_apply, breakpointClipped_eq]

/-- A breakpoint of a curve after the first n values of a sequence have been put into it (R80). -/
theorem putBreakpoints_map_toInt (f : Nat → BitVec 24) {t : Curve} {first n : Nat} (hroom : first + n ≤ t.length)
    (j : Nat) :
    ((putBreakpoints first ((List.range n).map f) t).getD j 0).toInt =
      if first ≤ j ∧ j < first + n then max (-131072) (min 131071 (f (j - first)).toInt)
      else (t.getD j 0).toInt := by
  have hlen : ((List.range n).map f).length = n := by simp
  split
  next hin =>
    obtain ⟨k, rfl⟩ := Nat.exists_eq_add_of_le hin.1
    have hk : k < n := by omega
    rw [putBreakpoints_getD_put (by omega) (by omega), saturateBreakpoint_toInt]
    simp [hk]
  next hout =>
    by_cases hj : j < first
    · rw [putBreakpoints_getD_below hj]
    · rw [putBreakpoints_getD_above (by omega)]

/-! ### The rule and the command -/

theorem indexOf_eq_none {b : Byte} (h : 4 ≤ b.toNat) : indexOf b = none := dif_neg h.not_gt

theorem indexOf_eq_some {b : Byte} {c : Chan} (h : b.toNat = c.val) : indexOf b = some c := by
  simp [indexOf, h]

/-- An ACTIVE part meets a known operation whose slot is free with no common refusal (R158). -/
theorem commonRefusal_of_active {op : Op} {s : State} (hpart : s.part = .active)
    (hknown : ∀ code, op ≠ .unknown code) (hslot : slotTaken s op = false) : commonRefusal op s = none := by
  unfold commonRefusal
  split
  next code => exact absurd rfl (hknown code)
  next => simp [hpart, hslot]

/-- The check on first and count in propositions (R80, R83). -/
theorem spanOk_iff {first count : Byte} :
    spanOk first count = true ↔ 1 ≤ count.toNat ∧ count.toNat ≤ 8 ∧ first.toNat + count.toNat ≤ 33 := by
  simp [spanOk, and_assoc]

/-- A number as one byte of a reply. -/
theorem f1_eq_singleton (n : Nat) : f1 n = [BitVec.ofNat 8 n] := by
  simp [f1, bytesOf]

section

variable {channel first count : Byte} {values : BitVec 192} {s : State}

/-- The code of CURVE_WRITE is known and has no slot, so an ACTIVE part meets it with no common refusal. -/
theorem commonRefusal_curveWrite (hpart : s.part = .active) :
    commonRefusal (.curveWrite channel first count values) s = none :=
  commonRefusal_of_active hpart nofun rfl

/-- The index check of R80. -/
theorem opCurveWrite_of_index_out_of_range (hi : 4 ≤ channel.toNat) :
    opCurveWrite channel first count values s = refuse .badIndex s := by
  rw [opCurveWrite, indexOf_eq_none hi]

/-- At a channel, the check on first and count alone decides (R80). -/
theorem opCurveWrite_of_channel {c : Chan} (hc : channel.toNat = c.val) :
    opCurveWrite channel first count values s =
      if spanOk first count then
        okay (f1 (((List.range count.toNat).map (writtenValue values)).countP breakpointClipped))
          (s.setChan c { s.chan c with
            pendCurve := putBreakpoints first.toNat ((List.range count.toNat).map (writtenValue values))
              (s.chan c).pendCurve })
      else refuse .badArg s := by
  rw [opCurveWrite, indexOf_eq_some hc]

/-- A refusal by CURVE_WRITE's own rule at the take is the refusal of the command. -/
theorem curveWrite_refuses (tag : BitVec 16) {status : Code} (hready : ReadyActive s)
    (hrule : opCurveWrite channel first count values (controlTaken s) = refuse status (controlTaken s)) :
    Refuses (.curveWrite tag channel first count values) s tag 0x20 status :=
  exec_of_refusal hready rfl (commonRefusal_curveWrite hready.2) hrule

/-- A channel written by CURVE_WRITE's own rule at the take is the answer of the command. -/
theorem curveWrite_answers (tag : BitVec 16) {c : Chan} {x : Channel} {data : List Byte} (hready : ReadyActive s)
    (hrule : opCurveWrite channel first count values (controlTaken s) = okay data ((controlTaken s).setChan c x)) :
    Answers (.curveWrite tag channel first count values) s tag 0x20 .ok data ((controlTaken s).setChan c x) :=
  exec_of_rule hready rfl (commonRefusal_curveWrite hready.2) hrule rfl rfl

end

/-- Settles O18: the index check, then the check on first and count, decide CURVE_WRITE's rule at the take; the curve
stored is the pending one with the values put into it. -/
theorem curveWriteSaturates : Obligations.CurveWriteSaturates := by
  intro tag channel first count values s hready
  refine ⟨fun hi => ?outOfRange, fun c hc => ⟨fun hspan => ?badSpan, fun hcount hcount8 hend hlen => ?stored⟩⟩
  case outOfRange => exact curveWrite_refuses tag hready (opCurveWrite_of_index_out_of_range hi)
  case badSpan =>
    have hspanNat : count.toNat = 0 ∨ 8 < count.toNat ∨ 33 < first.toNat + count.toNat :=
      hspan.imp_left (congrArg BitVec.toNat)
    have hbad : ¬spanOk first count = true := by
      rw [spanOk_iff]
      omega
    exact curveWrite_refuses tag hready ((opCurveWrite_of_channel hc).trans (if_neg hbad))
  case stored =>
    have hrule := (opCurveWrite_of_channel (values := values) (s := controlTaken s) hc).trans
      (if_pos (spanOk_iff.mpr ⟨hcount, hcount8, hend⟩))
    rw [countP_breakpointClipped_map, f1_eq_singleton, controlTaken_chan] at hrule
    exact ⟨_, (putBreakpoints_length ..).trans hlen,
      fun j _ => putBreakpoints_map_toInt (writtenValue values) (hend.trans_eq hlen.symm) j,
      curveWrite_answers tag hready hrule⟩

end Sys2Proof.Machine
end

section
/-! LOAD_OPEN (R109): its checks in propositions, its rule check by check over an arbitrary state, and what the command
answers. -/

namespace Sys2Proof.Machine

section

variable {a n : Nat} {s : State}

theorem overlaps_iff {b m : Nat} : overlaps a n b m = true ↔ a < b + m ∧ b < a + n := decide_eq_true_iff

/-- Check 2 of R109, its part on the retire in flight, in propositions. -/
theorem retireOver_iff :
    retireOver s a n = true ↔
      ∃ r, s.retire = some r ∧ a < rowBase r.bank r.row + 256 ∧ rowBase r.bank r.row < a + n := by
  cases hr : s.retire <;> simp [retireOver, hr, overlaps_iff]

/-- Check 3 of R109 in propositions. -/
theorem windowOk_iff :
    windowOk a n = true ↔ a % 16 = 0 ∧ n % 16 = 0 ∧ 16 ≤ n ∧ n ≤ 4194304 ∧ a + n ≤ 4194304 := by
  simp [windowOk, and_assoc]

/-- A range meets a locked segment (R2). -/
theorem lockedOver_iff :
    lockedOver s a n = true ↔
      ∃ p ∈ s.segs, (a < p.2.base + p.2.length ∧ p.2.base < a + n) ∧ p.2.locked = true := by
  simp only [lockedOver, List.any_eq_true, Bool.and_eq_true, overlaps_iff]

/-- A range meets a segment in use (R2). -/
theorem usedOver_iff :
    usedOver s a n = true ↔
      ∃ p ∈ s.segs, (a < p.2.base + p.2.length ∧ p.2.base < a + n) ∧ 0 < p.2.use := by
  simp only [usedOver, List.any_eq_true, Bool.and_eq_true, overlaps_iff, decide_eq_true_iff]

/-- A range whose segments are all unlocked passes check 4 of R109. -/
theorem lockedOver_eq_false
    (h : ∀ p ∈ s.segs, a < p.2.base + p.2.length ∧ p.2.base < a + n → p.2.locked = false) :
    lockedOver s a n = false := by
  rw [Bool.eq_false_iff, ne_eq, lockedOver_iff]
  rintro ⟨p, hp, hmeets, hlocked⟩
  exact Bool.false_ne_true ((h p hp hmeets).symm.trans hlocked)

/-- A range whose segments are all unused passes check 5 of R109. -/
theorem usedOver_eq_false
    (h : ∀ p ∈ s.segs, a < p.2.base + p.2.length ∧ p.2.base < a + n → p.2.use = 0) :
    usedOver s a n = false := by
  rw [Bool.eq_false_iff, ne_eq, usedOver_iff]
  rintro ⟨p, hp, hmeets, huse⟩
  exact huse.ne' (h p hp hmeets)

end

section

variable {tag : BitVec 16} {base length : BitVec 32} {s : State}

/-- The load window as LOAD_OPEN opens it: empty, at its base, accepting (R109). -/
def openedWindow (tag : BitVec 16) (base length : BitVec 32) : LoadWindow :=
  { base := base.toNat, length := length.toNat, next := base.toNat, written := 0, accepting := true, tag := tag }

/-- Check 1 of R109. -/
theorem opLoadOpen_of_not_ready (hstore : s.store.state ≠ .ready) :
    opLoadOpen tag base length s = refuse .notReady s :=
  if_pos hstore

/-- Check 2 of R109: the window open, or a retire in flight over the range. -/
theorem opLoadOpen_of_busy (hstore : s.store.state = .ready)
    (hbusy : s.ldw.window ≠ none ∨ retireOver s base.toNat length.toNat = true) :
    opLoadOpen tag base length s = refuse .busy s := by
  rw [← Option.isSome_iff_ne_none, ← Bool.or_eq_true] at hbusy
  rw [opLoadOpen, if_neg (not_not.mpr hstore), if_pos hbusy]

/-- Where checks 1 and 2 of R109 pass, checks 3 to 5 decide in their order. -/
theorem opLoadOpen_of_free (hstore : s.store.state = .ready) (hwindow : s.ldw.window = none)
    (hretire : retireOver s base.toNat length.toNat = false) :
    opLoadOpen tag base length s =
      if !windowOk base.toNat length.toNat then refuse .badArg s
      else if lockedOver s base.toNat length.toNat then refuse .protected_ s
      else if usedOver s base.toNat length.toNat then refuse .inUse s
      else okay [] { s with ldw := { s.ldw with window := some (openedWindow tag base length) } } := by
  have hfree : ¬(s.ldw.window.isSome || retireOver s base.toNat length.toNat) = true := by simp [hwindow, hretire]
  rw [opLoadOpen, if_neg (not_not.mpr hstore), if_neg hfree]
  rfl

/-- The code of LOAD_OPEN is known and has no slot, so an ACTIVE part meets it with no common refusal. -/
theorem commonRefusal_loadOpen (hpart : s.part = .active) : commonRefusal (.loadOpen base length) s = none :=
  commonRefusal_of_active hpart nofun rfl

/-- A refusal by LOAD_OPEN's own rule at the take is the refusal of the command. -/
theorem loadOpen_refuses {status : Code} (hready : ReadyActive s)
    (hrule : opLoadOpen tag base length (controlTaken s) = refuse status (controlTaken s)) :
    Refuses (.loadOpen tag base length) s tag 0x30 status :=
  exec_of_refusal hready rfl (commonRefusal_loadOpen hready.2) hrule

/-- A window opened by LOAD_OPEN's own rule at the take is the answer of the command. -/
theorem loadOpen_answers {x : Ldw} (hready : ReadyActive s)
    (hrule : opLoadOpen tag base length (controlTaken s) = okay [] { controlTaken s with ldw := x }) :
    Answers (.loadOpen tag base length) s tag 0x30 .ok [] { controlTaken s with ldw := x } :=
  exec_of_rule hready rfl (commonRefusal_loadOpen hready.2) hrule rfl rfl

end

/-- Settles O23: each check of R109 decides the operation's rule over the part as it stands at the take, whose store,
window, retire and directory are those before it. -/
theorem loadOpenByItsChecks : Obligations.LoadOpenByItsChecks := by
  intro tag base length s hready i retiring meets
  refine ⟨fun hstore => ?notReady, fun hstore => ⟨fun hbusy => ?busy, fun hwindow hretiring => ?free⟩⟩
  case notReady => exact loadOpen_refuses hready (opLoadOpen_of_not_ready hstore)
  case busy => exact loadOpen_refuses hready (opLoadOpen_of_busy hstore (hbusy.imp_right retireOver_iff.mpr))
  case free =>
    have hrule := opLoadOpen_of_free (tag := tag) (s := controlTaken s) hstore hwindow
      (Bool.eq_false_iff.mpr (mt retireOver_iff.mp hretiring))
    refine ⟨fun hargs => ?badArg, fun hbase hlength hmin hmax hend =>
      ⟨fun hlocked => ?locked, fun hunlocked => ⟨fun hused => ?used, fun hunused => ?opened⟩⟩⟩
    case badArg =>
      have hbad : windowOk base.toNat length.toNat = false := Bool.eq_false_iff.mpr (mt windowOk_iff.mp hargs)
      exact loadOpen_refuses hready (hrule.trans (if_pos (by rw [hbad]; rfl)))
    all_goals
      rw [windowOk_iff.mpr ⟨hbase, hlength, hmin, hmax, hend⟩, if_neg (by decide)] at hrule
    case locked => exact loadOpen_refuses hready (hrule.trans (if_pos (lockedOver_iff.mpr hlocked)))
    all_goals
      rw [lockedOver_eq_false (s := controlTaken s) hunlocked, if_neg Bool.false_ne_true] at hrule
    case used => exact loadOpen_refuses hready (hrule.trans (if_pos (usedOver_iff.mpr hused)))
    case opened =>
      rw [usedOver_eq_false (s := controlTaken s) hunused, if_neg Bool.false_ne_true] at hrule
      exact loadOpen_answers hready hrule

end Sys2Proof.Machine
end

section
/-! LOAD_CELL (R110, R150, R151): what the arrival of a load cell does, case by case over an arbitrary state, and how the
write of the buffer head is asked. -/

namespace Sys2Proof.Machine

/-- A good cell that meets a listening part is dispatched by its kind (R146, R148). -/
theorem powered_receiveGood_of_listening {a : Arrival} {s : State} (hlistening : Listening s) :
    powered (fun s => receiveGood a s) s = .next (dispatch a (syncGood s)) := by
  obtain ⟨hreset, hsync⟩ := hlistening
  simp [powered, hreset, receiveGood, hsync]

/-- A request changes the bank controllers and, by a grant, the states of burst records (R100). -/
theorem request_banksOnly (b : BankNo) (r : Req) (s : State) : BanksOnly s (request b r s) :=
  ⟨(request_grantFrame b r s).rest, fun c => decideBank_onlyGrants b _ c⟩

section

variable {p : Payload} {w : LoadWindow} {s : State}

/-! ### The write of the buffer head (R110) -/

theorem startWrite_of_busy (hbusy : loadBusy s = true) : startWrite s = s := if_pos hbusy

/-- With nothing of the Load Writer in progress, the head of a buffer is asked of the bank of the next address. -/
theorem startWrite_of_head (hidle : loadBusy s = false) (hw : s.ldw.window = some w) (hbuffer : s.ldw.buffer ≠ []) :
    startWrite s = request (bankOf w.next) (.loadWrite w.next) s := by
  simp [startWrite, hidle, requestHead, hw, hbuffer]

/-! ### The arrival (R110, R150, R151) -/

/-- The state with a load cell counted as received and put at the tail of the buffer. -/
def loadJoined (p : Payload) (s : State) : State :=
  (countReceived .load s).setLdw { s.ldw with buffer := s.ldw.buffer ++ [p] }

/-- The Load Writer's requests are those at the banks, which a cell that joins leaves alone. -/
theorem loadBusy_loadJoined : loadBusy (loadJoined p s) = loadBusy s := rfl

theorem loadArrives_of_no_window (hw : s.ldw.window = none) :
    loadArrives p s = dropStrayLoad 0 (countReceived .load s) := by
  simp [loadArrives, hw]

theorem loadArrives_of_not_accepting (hw : s.ldw.window = some w) (haccepting : w.accepting = false) :
    loadArrives p s = dropStrayLoad 1 (countReceived .load s) := by
  simp [loadArrives, hw, haccepting]

/-- The words written and buffered fill the window. -/
theorem loadArrives_of_filled (hw : s.ldw.window = some w) (haccepting : w.accepting = true)
    (hfilled : w.length ≤ w.written + 16 * s.ldw.buffer.length) :
    loadArrives p s = dropStrayLoad 2 (countReceived .load s) := by
  simp [loadArrives, hw, haccepting, hfilled]

/-- The window has room for the cell and the buffer has none. -/
theorem loadArrives_of_buffer_full (hw : s.ldw.window = some w) (haccepting : w.accepting = true)
    (hroom : w.written + 16 * s.ldw.buffer.length < w.length) (hfull : 4 ≤ s.ldw.buffer.length) :
    loadArrives p s = dropOverrun .load (countReceived .load s) := by
  simp [loadArrives, hw, haccepting, hroom.not_ge, hfull]

/-- The window and the buffer have room for the cell. -/
theorem loadArrives_of_buffer_room (hw : s.ldw.window = some w) (haccepting : w.accepting = true)
    (hroom : w.written + 16 * s.ldw.buffer.length < w.length) (hbuffer : s.ldw.buffer.length < 4) :
    loadArrives p s = startWrite (loadJoined p s) := by
  simp [loadArrives, hw, haccepting, hroom.not_ge, hbuffer.not_ge, loadJoined]

/-! ### The command -/

/-- What the arrival does behind the LRX's side of a good cell is the outcome of the command. -/
theorem exec_loadCell {t : State} (hlistening : Listening s) (harrives : loadArrives p (syncGood s) = t) :
    exec (.loadCell p) s = .next t :=
  harrives ▸ powered_receiveGood_of_listening (a := .load p) hlistening

end

/-- Settles O42: the checks of R110, R151 and R150 in their order decide the arrival over the part as the LRX leaves it,
whose window, buffer and banks are those before it; a buffered cell leaves a head whose write is the one request asked. -/
theorem loadCellBufferedOrStray : Obligations.LoadCellBufferedOrStray := by
  intro p s hlistening r stray
  refine ⟨fun hnone => ?noWindow, fun w hw => ⟨fun hclosing => ?notAccepting, fun haccepting hfilled => ?filled,
    fun haccepting hroom => ⟨fun hfull => ?overrun, fun hbuffer => ?buffered⟩⟩⟩
  case noWindow => exact exec_loadCell hlistening (loadArrives_of_no_window hnone)
  case notAccepting => exact exec_loadCell hlistening (loadArrives_of_not_accepting hw hclosing)
  case filled => exact exec_loadCell hlistening (loadArrives_of_filled hw haccepting hfilled)
  case overrun => exact exec_loadCell hlistening (loadArrives_of_buffer_full hw haccepting hroom hfull)
  case buffered =>
    intro joined
    have harrives : loadArrives p (syncGood s) = startWrite joined :=
      loadArrives_of_buffer_room hw haccepting hroom hbuffer
    have hstill : loadBusy joined = loadBusy s := loadBusy_loadJoined
    refine ⟨fun hbusy => ?waits, fun hidle => ?asked⟩
    case waits => exact exec_loadCell hlistening (harrives.trans (startWrite_of_busy (hstill.trans hbusy)))
    case asked =>
      have hhead : joined.ldw.buffer ≠ [] := List.append_ne_nil_of_right_ne_nil _ (List.cons_ne_nil p [])
      have hstart := startWrite_of_head (s := joined) (hstill.trans hidle) hw hhead
      exact ⟨_, exec_loadCell hlistening (harrives.trans hstart), request_banksOnly .., request_asked ..,
        fun b hb => bank_request_of_ne _ joined hb⟩

end Sys2Proof.Machine
end
